-- ==== Sys2Proof/Config.lean ====
section
/-! DEFINITION. What the spec leaves free: the timer's draws (60_exceptions.md R124). The block's own constants are not
configurable (00_scope.md R5) and stand in Machine/Operands.lean; TEMP_POLICY is a field of State (log 9). -/

namespace Sys2Proof

/-- FREE VALUE (log 6). For how many draws the timer's clock stands before its movement number `k`. -/
opaque Config.timerStall : Nat → Nat

/-- FREE VALUE (log 6). By how many microseconds beyond 1 the timer's clock moves at its movement number `k`. -/
opaque Config.timerMove : Nat → Nat

/-- A run of `stall k` draws of 0, then one of `move k + 1`, then the same for `k + 1`, and so on: the draw number `n`
counted from the place where `z` of the zeros before movement `k` are past. These are exactly the draws of a fair clock
(Laws/Time.lean, `fairDraw_moves_again` and `fairDraw_covers`), whatever `stall` and `move` are. -/
def Config.fairDraw (stall move : Nat → Nat) (k z : Nat) : Nat → Nat
  | 0 => if z < stall k then 0 else move k + 1
  | n + 1 => if z < stall k then fairDraw stall move k (z + 1) n else fairDraw stall move (k + 1) 0 n

/-- FREE VALUE (log 6). How many microseconds the timer's clock advances at the draw number `n` of a run, where the state
lists no draw for it. "Which value a read returns is a draw, subject only to that order", and the clock passes every bound
(60_exceptions.md R124): nothing else can be proved of it, since what it is made of has no body. -/
def Config.timerAdvance (n : Nat) : Nat := Config.fairDraw Config.timerStall Config.timerMove 0 0 n

end Sys2Proof
end

