-- ==== Sys2Proof/Word.lean ====
section
/-! DEFINITION. The widths the block's values cross its ports with (20_memory.md R36), and nothing more:
all arithmetic is in files under Machine/ and in Decode.lean. -/

namespace Sys2Proof

/-- A frame word: `FRAME_OUT`, `TX_FRAME`, `FR` (32 bits, 30_encoding.md R53; bit 0 least significant, 00_scope.md R6). -/
abbrev Word := BitVec 32

/-- A value of the `CMD` port in format CMD16 (30_encoding.md R46). -/
abbrev Cmd16 := BitVec 16

/-- A value of the `TIMER` port: microseconds modulo 2^64 (60_exceptions.md R123). -/
abbrev Micros := BitVec 64

/-- A temperature code, frame bits 16:9 (30_encoding.md R52). -/
abbrev TempCode := BitVec 8

end Sys2Proof
end

