-- ==== Sys2Proof/Syntax.lean ====
section
/-! DEFINITION. The block's operations as syntax: one constructor of `Instr` for each row of spec/opcode_table.json,
the Command they carry (30_encoding.md R45), the places the rows' bits stand at (R64), and what the host may do next. -/

namespace Sys2Proof

/-- `function`: "enumeration {POWER, SETTING}" (30_encoding.md R45). -/
inductive CmdFunction where
  | setting
  | power
  deriving DecidableEq, Repr

/-- `mode`: "enumeration {COOL, HEAT, RECYCLE, WATER, FAN}" (30_encoding.md R45), in the order of `mode_sel` (R48). -/
inductive Mode where
  | cool
  | heat
  | recycle
  | water
  | fan
  deriving DecidableEq, Repr

/-- `fan_speed`: "enumeration {LOW, MED, HI, AUTO}" (30_encoding.md R45), in the order of `fan_sel` (R50). -/
inductive FanSpeed where
  | low
  | med
  | hi
  | auto
  deriving DecidableEq, Repr

/-- A Command (30_encoding.md R45). `temp` is what the CMD port carries, an 8-bit unsigned number of degrees (R52):
the domain [16, 30] is the host's precondition, checked where TEMP_POLICY says (40_encoder.md R79). -/
structure Command where
  function : CmdFunction
  mode : Mode
  fan : FanSpeed
  temp : BitVec 8
  deriving DecidableEq, Repr

/-- The operations: one constructor per row of spec/opcode_table.json, in the table's order. -/
inductive Instr where
  /-- ENCODE (40_encoder.md R69). -/
  | encode (c : Command)
  /-- TRANSMIT (41_modulator.md R83); every word is legal (30_encoding.md R66). -/
  | transmit (w : Word)
  /-- FN_SETTING: frame bit 0 = 0 (30_encoding.md R47). -/
  | fnSetting
  /-- FN_POWER: frame bit 0 = 1 (30_encoding.md R47). -/
  | fnPower
  /-- MODE_COOL: frame bits 3:1 = 100 (30_encoding.md R49). -/
  | modeCool
  /-- MODE_HEAT: frame bits 3:1 = 010 (30_encoding.md R49). -/
  | modeHeat
  /-- MODE_RECYCLE: frame bits 3:1 = 110 (30_encoding.md R49). -/
  | modeRecycle
  /-- MODE_WATER: frame bits 3:1 = 001 (30_encoding.md R49). -/
  | modeWater
  /-- MODE_FAN: frame bits 3:1 = 101 (30_encoding.md R49). -/
  | modeFan
  /-- FAN_LOW: frame bits 5:4 = 00 (30_encoding.md R51). -/
  | fanLow
  /-- FAN_MED: frame bits 5:4 = 01 (30_encoding.md R51). -/
  | fanMed
  /-- FAN_HI: frame bits 5:4 = 10 (30_encoding.md R51). -/
  | fanHi
  /-- FAN_AUTO: frame bits 5:4 = 11 (30_encoding.md R51). -/
  | fanAuto
  /-- TEMP: the temperature code in frame bits 16:9 (30_encoding.md R52). -/
  | temp (code : TempCode)
  /-- RSVD_8_6: frame bits 8:6 = 000 (30_encoding.md R54). -/
  | rsvd8to6
  /-- RSVD_31_17: frame bits 31:17 = 0 (30_encoding.md R55). -/
  | rsvd31to17
  /-- PREAMBLE: carrier on, then off (41_modulator.md R89). -/
  | preamble
  /-- SYM1: data symbol of a 1 bit (41_modulator.md R90). -/
  | sym1
  /-- SYM0: data symbol of a 0 bit (41_modulator.md R90). -/
  | sym0
  /-- TRAILER_1: first trailer symbol (41_modulator.md R91). -/
  | trailer1
  /-- TRAILER_0: second trailer symbol (41_modulator.md R91). -/
  | trailer0
  /-- STOP: the stop pulse and the final off write (41_modulator.md R92). -/
  | stop
  deriving DecidableEq, Repr

/-- The fields of a frame word (30_encoding.md R53). -/
inductive FrameField where
  | function
  | mode
  | fanSpeed
  | tempCode
  | reserved8to6
  | reserved31to17
  deriving DecidableEq, Repr

/-- The waveform elements the sequencer selects by its phase (30_encoding.md R64). -/
inductive Element where
  | preamble
  | data
  | trailer1
  | trailer0
  | stop
  deriving DecidableEq, Repr

/-- What selects an operation (30_encoding.md R64): the port, the frame field or the sequencer phase at which its bits
stand. The table's rows overlap as bit patterns, so bits have a meaning only together with their slot (log 15). -/
inductive Slot where
  /-- the CMD port, format CMD16 -/
  | cmd
  /-- the TX_FRAME port with a request on TX_REQ, format FRAME32 -/
  | txFrame
  /-- one field of a frame word, format FRAME32 -/
  | field (f : FrameField)
  /-- the sequencer's current element, format WAVE -/
  | wave (e : Element)
  deriving DecidableEq, Repr

/-- Why a CMD16 value names no Command: the two checks that need no TEMP_POLICY (40_encoder.md R80). -/
inductive CmdError where
  /-- `CMD[7:6] ≠ 00` (40_encoder.md R80). -/
  | cmdReserved
  /-- `CMD[3:1] ≥ 5` (40_encoder.md R80). -/
  | modeSelector
  deriving DecidableEq, Repr

/-- Why bits at a slot name no operation. -/
inductive DecodeError where
  /-- the CMD16 value names no Command (30_encoding.md R65). -/
  | cmd (e : CmdError)
  /-- mode field 000, 011 or 111: "assigned to no mode" (30_encoding.md R57). -/
  | unassignedMode
  /-- a reserved frame field that is not 0 matches no row (30_encoding.md R54, R55). -/
  | reservedNotZero
  /-- no WAVE row of that element has that two-phase level string (30_encoding.md R64). -/
  | noWaveRow
  deriving DecidableEq, Repr

/-- What `configure_carrier(frequency_hz, duty_cycle_percent)` sets (60_exceptions.md R125). -/
structure CarrierConfig where
  frequencyHz : Nat
  dutyPercent : Nat
  deriving DecidableEq, Repr

/-- What the host (or another agent outside the block) does at one of its steps (10_state.md R9; log 3). -/
inductive HostOp where
  /-- ENCODE: drive CMD with this value and take FRAME_OUT (40_encoder.md R69). -/
  | encode (cmd : Cmd16)
  /-- TRANSMIT of this word (41_modulator.md R83). -/
  | transmit (w : Word)
  /-- `TRANSMIT FRAME_OUT`: "transmits the current ENCODE result" (30_encoding.md R68; log 22). -/
  | transmitFrameOut
  /-- drive the field `f` of TX_FRAME with the value that `bits`, a frame word, has there (20_memory.md R43; log 13). -/
  | setField (f : FrameField) (bits : Word)
  /-- drive TX_FRAME with this word, whatever it is, and request nothing (20_memory.md R43, 70_reset_and_hazards.md R142). -/
  | driveTxFrame (w : Word)
  /-- `configure_carrier`: to the PWM, not to the block (60_exceptions.md R125; log 10). -/
  | configureCarrier (c : CarrierConfig)
  /-- another agent calls `set_carrier` (70_reset_and_hazards.md R140; log 11). -/
  | foreignSetCarrier (on : Bool)
  /-- the host does nothing at this step (log 3). -/
  | idle
  deriving DecidableEq, Repr

/-- `SEND`, the one pseudo-instruction (30_encoding.md R68): ENCODE, then TRANSMIT of the word it gave. -/
def HostOp.send (cmd : Cmd16) : List HostOp := [.encode cmd, .transmitFrameOut]

/-- TEMP_POLICY, the parameter of 40_encoder.md R79 (00_scope.md section 4). -/
inductive TempPolicy where
  | refuse
  | wrap
  deriving DecidableEq, Repr

end Sys2Proof
end

