-- ==== Sys2Proof/WellFormed.lean ====
section
/-! DEFINITION. Well-formed instructions: the host's precondition on a Command (30_encoding.md R45). Every other
operand takes every value of its width (30_encoding.md R66), so nothing else is checked. -/

namespace Sys2Proof

/-- `temperature_celsius` is "domain-constrained to [16, 30] inclusive" (30_encoding.md R45). -/
def Command.admitted (c : Command) : Bool := decide (16 ≤ c.temp.toNat) && decide (c.temp.toNat ≤ 30)

/-- A well-formed instruction is one the spec admits under every TEMP_POLICY (log 27). One constructor a line, no wildcard. -/
def Instr.wellFormed : Instr → Bool
  | .encode c => c.admitted
  | .transmit _ => true
  | .fnSetting => true
  | .fnPower => true
  | .modeCool => true
  | .modeHeat => true
  | .modeRecycle => true
  | .modeWater => true
  | .modeFan => true
  | .fanLow => true
  | .fanMed => true
  | .fanHi => true
  | .fanAuto => true
  | .temp _ => true
  | .rsvd8to6 => true
  | .rsvd31to17 => true
  | .preamble => true
  | .sym1 => true
  | .sym0 => true
  | .trailer1 => true
  | .trailer0 => true
  | .stop => true

end Sys2Proof
end

