-- ==== Sys2Proof/Decode.lean ====
section
/-! DEFINITION. Decoding: from the bits at a slot to the instruction they stand for, total, rejecting by name; then the
encoder, the opcode table's match and mask columns, and the host's reading of a table word. -/

namespace Sys2Proof

/-! ### The Command on the CMD port (format CMD16, 30_encoding.md R46) -/

/-- `fn_sel`: 1 = POWER, 0 = SETTING (30_encoding.md R47). -/
def functionOfSel (b : BitVec 1) : CmdFunction := if b = 1 then .power else .setting

/-- The `fn_sel` of a function (30_encoding.md R47). -/
def selOfFunction : CmdFunction → BitVec 1
  | .setting => 0
  | .power => 1

/-- `MODE_OF_SEL`: the mode by its position in the list, none for 5, 6 and 7 (30_encoding.md R48). -/
def modeOfSel (m : BitVec 3) : Option Mode :=
  match m.toNat with
  | 0 => some .cool
  | 1 => some .heat
  | 2 => some .recycle
  | 3 => some .water
  | 4 => some .fan
  | _ => none

/-- The `mode_sel` of a mode (30_encoding.md R48). -/
def selOfMode : Mode → BitVec 3
  | .cool => 0
  | .heat => 1
  | .recycle => 2
  | .water => 3
  | .fan => 4

/-- `FAN_OF_SEL`: "All four 2-bit values are assigned" (30_encoding.md R50). -/
def fanOfSel (f : BitVec 2) : FanSpeed :=
  match f.toNat with
  | 0 => .low
  | 1 => .med
  | 2 => .hi
  | _ => .auto

/-- The `fan_sel` of a fan speed (30_encoding.md R50). -/
def selOfFan : FanSpeed → BitVec 2
  | .low => 0
  | .med => 1
  | .hi => 2
  | .auto => 3

/-- The fields of a CMD16 value, with the two checks that need no TEMP_POLICY, in the order of 40_encoder.md R80. -/
def decodeCmd (v : Cmd16) : Except CmdError Command :=
  if v.extractLsb' 6 2 ≠ 0 then .error .cmdReserved
  else match modeOfSel (v.extractLsb' 1 3) with
    | none => .error .modeSelector
    | some m => .ok
        { function := functionOfSel (v.extractLsb' 0 1), mode := m,
          fan := fanOfSel (v.extractLsb' 4 2), temp := v.extractLsb' 8 8 }

/-- A Command packed as `tttttttt00ffmmmp` (30_encoding.md R46). -/
def packCmd (c : Command) : Cmd16 :=
  (selOfFunction c.function).setWidth 16 ||| ((selOfMode c.mode).setWidth 16 <<< 1)
    ||| ((selOfFan c.fan).setWidth 16 <<< 4) ||| (c.temp.setWidth 16 <<< 8)

/-! ### The fields of a frame word (format FRAME32, 30_encoding.md R53) -/

/-- The bits a field takes up in a frame word (30_encoding.md R53). -/
def fieldMask : FrameField → Word
  | .function => 0x1
  | .mode => 0xE
  | .fanSpeed => 0x30
  | .tempCode => 0x1FE00
  | .reserved8to6 => 0x1C0
  | .reserved31to17 => 0xFFFE0000

/-- The row of one field's value in the frame word `w`: each field's bits looked up in its code table. -/
def decodeField (f : FrameField) (w : Word) : Except DecodeError Instr :=
  match f with
  | .function => .ok (if w.extractLsb' 0 1 = 1 then .fnPower else .fnSetting)
  | .mode =>
    match (w.extractLsb' 1 3).toNat with
    | 4 => .ok .modeCool
    | 2 => .ok .modeHeat
    | 6 => .ok .modeRecycle
    | 1 => .ok .modeWater
    | 5 => .ok .modeFan
    | _ => .error .unassignedMode
  | .fanSpeed =>
    match (w.extractLsb' 4 2).toNat with
    | 0 => .ok .fanLow
    | 1 => .ok .fanMed
    | 2 => .ok .fanHi
    | _ => .ok .fanAuto
  | .tempCode => .ok (.temp (w.extractLsb' 9 8))
  | .reserved8to6 => if w.extractLsb' 6 3 = 0 then .ok .rsvd8to6 else .error .reservedNotZero
  | .reserved31to17 => if w.extractLsb' 17 15 = 0 then .ok .rsvd31to17 else .error .reservedNotZero

/-- All the fields of a frame word, in the order of 30_encoding.md R53. -/
def frameFields : List FrameField :=
  [.function, .mode, .fanSpeed, .reserved8to6, .tempCode, .reserved31to17]

/-- The decoder of frame words that 30_encoding.md R64 speaks of: the rows of `w`, one for each field that has one. -/
def frameRows (w : Word) : List Instr := frameFields.filterMap fun f => (decodeField f w).toOption

/-! ### The waveform elements (format WAVE) -/

/-- The row of an element from its two-phase level string, first phase on the left, 1 for carrier on (30_encoding.md R64). -/
def decodeWave (e : Element) (levels : BitVec 2) : Except DecodeError Instr :=
  match e, levels.toNat with
  | .preamble, 2 => .ok .preamble
  | .data, 1 => .ok .sym1
  | .data, 2 => .ok .sym0
  | .trailer1, 1 => .ok .trailer1
  | .trailer0, 2 => .ok .trailer0
  | .stop, 2 => .ok .stop
  | _, _ => .error .noWaveRow

/-- The instruction that the bits at a slot stand for. Only the slot's own width is read: 16 bits of CMD, 32 of a frame
word, 2 of a level string (30_encoding.md R67). -/
def decode (slot : Slot) (bits : Word) : Except DecodeError Instr :=
  match slot with
  | .cmd =>
    match decodeCmd (bits.setWidth 16) with
    | .ok c => .ok (.encode c)
    | .error e => .error (.cmd e)
  | .txFrame => .ok (.transmit bits)
  | .field f => decodeField f bits
  | .wave e => decodeWave e (bits.setWidth 2)

/-! ### The encoder, and the table's columns -/

/-- The slot and the bits of an instruction; bits the row leaves as `x` are 0. -/
def encode : Instr → Slot × Word
  | .encode c => (.cmd, (packCmd c).setWidth 32)
  | .transmit w => (.txFrame, w)
  | .fnSetting => (.field .function, 0x0)
  | .fnPower => (.field .function, 0x1)
  | .modeCool => (.field .mode, 0x8)
  | .modeHeat => (.field .mode, 0x4)
  | .modeRecycle => (.field .mode, 0xC)
  | .modeWater => (.field .mode, 0x2)
  | .modeFan => (.field .mode, 0xA)
  | .fanLow => (.field .fanSpeed, 0x00)
  | .fanMed => (.field .fanSpeed, 0x10)
  | .fanHi => (.field .fanSpeed, 0x20)
  | .fanAuto => (.field .fanSpeed, 0x30)
  | .temp code => (.field .tempCode, code.setWidth 32 <<< 9)
  | .rsvd8to6 => (.field .reserved8to6, 0x0)
  | .rsvd31to17 => (.field .reserved31to17, 0x0)
  | .preamble => (.wave .preamble, 0b10)
  | .sym1 => (.wave .data, 0b01)
  | .sym0 => (.wave .data, 0b10)
  | .trailer1 => (.wave .trailer1, 0b01)
  | .trailer0 => (.wave .trailer0, 0b10)
  | .stop => (.wave .stop, 0b10)

/-- The "mask" column of spec/opcode_table.json. -/
def rowMask : Instr → Word
  | .encode _ => 0xC0
  | .transmit _ => 0x0
  | .fnSetting => 0x1
  | .fnPower => 0x1
  | .modeCool => 0xE
  | .modeHeat => 0xE
  | .modeRecycle => 0xE
  | .modeWater => 0xE
  | .modeFan => 0xE
  | .fanLow => 0x30
  | .fanMed => 0x30
  | .fanHi => 0x30
  | .fanAuto => 0x30
  | .temp _ => 0x0
  | .rsvd8to6 => 0x1C0
  | .rsvd31to17 => 0xFFFE0000
  | .preamble => 0x3
  | .sym1 => 0x3
  | .sym0 => 0x3
  | .trailer1 => 0x3
  | .trailer0 => 0x3
  | .stop => 0x3

/-- The "match" column of spec/opcode_table.json. -/
def rowMatch : Instr → Word
  | .encode _ => 0x0
  | .transmit _ => 0x0
  | .fnSetting => 0x0
  | .fnPower => 0x1
  | .modeCool => 0x8
  | .modeHeat => 0x4
  | .modeRecycle => 0xC
  | .modeWater => 0x2
  | .modeFan => 0xA
  | .fanLow => 0x0
  | .fanMed => 0x10
  | .fanHi => 0x20
  | .fanAuto => 0x30
  | .temp _ => 0x0
  | .rsvd8to6 => 0x0
  | .rsvd31to17 => 0x0
  | .preamble => 0x2
  | .sym1 => 0x1
  | .sym0 => 0x2
  | .trailer1 => 0x1
  | .trailer0 => 0x2
  | .stop => 0x2

/-! ### A word of the opcode table, with no slot given -/

/-- The slot a table word of `nbits` bits is read at, where no port or phase is given with it (log 15): the two WAVE level
strings 01 and 10 alone in a byte are a data symbol, other words of up to 16 bits are on CMD, wider ones on TX_FRAME. -/
def tableSlot (nbits w : Nat) : Slot :=
  if nbits ≤ 8 ∧ (w = 1 ∨ w = 2) then .wave .data
  else if nbits ≤ 16 then .cmd
  else .txFrame

/-- What the decoder reads from the table word `w` of `nbits` bits, numbered as the table numbers them. -/
def decodeTableWord (nbits w : Nat) : Option Instr :=
  (decode (tableSlot nbits w) (BitVec.ofNat 32 w)).toOption

end Sys2Proof
end

