-- ==== Sys2Proof/Machine/State.lean ====
section
/-! DEFINITION. The machine's state as plain data, everything 10_state.md and 60_exceptions.md give the block and the
agents around it, the reasons a step can stop, and the state after reset. INVENTORY.md lists each field with its rule. -/

namespace Sys2Proof.Machine

/-- SEQ: "`IDLE` and `RUN(k)` for a phase index `k` with `0 ≤ k ≤ 210`" (10_state.md R13). -/
inductive Seq where
  | idle
  | run (k : Fin 211)
  deriving DecidableEq, Repr

/-- First or second half of a symbol: the `h` of `BIT(i, h)`, `TRL1(h)` and `TRL0(h)` (10_state.md R14). -/
inductive Half where
  | first
  | second
  deriving DecidableEq, Repr

/-- PH: the named phases (10_state.md R14, 41_modulator.md R88). -/
inductive Ph where
  | preOn
  | preOff
  | bit (i : Fin 32) (h : Half)
  | trl1 (h : Half)
  | trl0 (h : Half)
  | stopOn
  deriving DecidableEq, Repr

/-- A phase `(level(p), dur(p))` (41_modulator.md R85): level true = carrier on; duration in microseconds. -/
structure Phase where
  level : Bool
  dur : Nat
  deriving DecidableEq, Repr

/-- The events of the block (20_memory.md R40), and RESET, which ends what was running. -/
inductive EventKind where
  /-- acceptance of a TRANSMIT of this word (41_modulator.md R97) -/
  | accept (w : Word)
  /-- `CarrierWrite(on)` (20_memory.md R38) -/
  | carrierWrite (on : Bool)
  /-- `TimerRead()` with the value it returned (20_memory.md R37) -/
  | timerRead (t : Micros)
  /-- TX_DONE, the return of the blocking call (41_modulator.md R96) -/
  | txDone
  /-- RESET took effect (70_reset_and_hazards.md R131) -/
  | reset
  deriving DecidableEq, Repr

/-- One event and the clock `c(e)` at which it happens (41_modulator.md R104). -/
structure Event where
  clock : Nat
  kind : EventKind
  deriving DecidableEq, Repr

/-- The platform's boot premises (60_exceptions.md R112; 70_reset_and_hazards.md R134, R135; log 10). -/
structure Platform where
  /-- the timer and the PWM are present and working -/
  present : Bool
  /-- what `configure_carrier` set; none: not called yet -/
  carrierConfig : Option CarrierConfig
  deriving DecidableEq, Repr

/-- The whole state. -/
structure State where
  /-- SEQ (10_state.md R13) -/
  seq : Seq
  /-- FR, 32 bits; none is the spec's own "holds no value" (10_state.md R15, R28; log 1) -/
  fr : Option Word
  /-- T0, 64 bits; none is the spec's own "holds no value" (10_state.md R16, R28; log 1) -/
  t0 : Option Micros
  /-- CARRIER, and so CARRIER_EN (10_state.md R17, R11) -/
  carrier : Bool
  /-- BUSY (10_state.md R18) -/
  busy : Bool
  /-- the CMD port (10_state.md R10) -/
  cmd : Cmd16
  /-- the TX_REQ port: a request is pending (10_state.md R10; log 5) -/
  txReq : Bool
  /-- the TX_FRAME port (10_state.md R10) -/
  txFrame : Word
  /-- the level of the RESET port at each coming step, oldest first; released after the last (10_state.md R10; log 4) -/
  resetIn : List Bool
  /-- TEMP_POLICY, a parameter of the model that no step writes (40_encoder.md R79; log 9) -/
  tempPolicy : TempPolicy
  /-- the boot premises, held by the external devices (70_reset_and_hazards.md R136; log 10) -/
  platform : Platform
  /-- what the host does at its coming steps, oldest first (10_state.md R9; log 3) -/
  host : List HostOp
  /-- the timer agent's unbounded clock `c` in microseconds (60_exceptions.md R124) -/
  clock : Nat
  /-- the timer agent's coming draws: how far its clock moves before each coming event, oldest first; past the end of the
  list every draw is a free value of a fair clock (60_exceptions.md R124; log 6) -/
  timeIn : List Nat
  /-- the model's own: how many timer draws the run has taken (log 6) -/
  draws : Nat
  /-- the events so far, NEWEST FIRST (20_memory.md R40; log 8) -/
  trace : List Event
  deriving DecidableEq, Repr

/-- Why the machine stops with a fault. Safe: the spec asks for a fault ("faults, and does not return zero", 10_state.md
R28), and no run from reset reaches one. -/
inductive Fault where
  /-- FR was read while it holds no value: raised by an element's step in a data phase or on beginning one, and by
  the fetch of a data symbol. Safe. -/
  | frNoValue
  /-- T0 was read while it holds no value: raised by an element's step. Safe. -/
  | t0NoValue
  /-- REP was read in IDLE, where it holds no value: raised by the view `State.readRep` alone. Safe. -/
  | repNoValue
  deriving DecidableEq, Repr

/-- Why a request is given no meaning (60_exceptions.md R113: "the refusal errs toward unprovable", so each is safe): the
closed list of R114, the runs that 93_implementation_defined.md I11 and I12 refuse, and, for the host, an arm without a
meaning, which exec does not have. -/
inductive Refusal where
  /-- an instruction whose arm in exec has no meaning yet; no arm uses it. Safe. -/
  | notModelled (mnemonic : String)
  /-- REF_CMD_RSVD: ENCODE with `CMD[7:6] ≠ 00` (40_encoder.md R80). Safe. -/
  | refCmdRsvd
  /-- REF_MODE_SEL: ENCODE with `CMD[3:1] ≥ 5` (40_encoder.md R80). Safe. -/
  | refModeSel
  /-- REF_TEMP_RANGE: ENCODE with a temperature outside [16, 30] under TEMP_POLICY refuse (40_encoder.md R79). Safe. -/
  | refTempRange
  /-- TRANSMIT while the timer or the PWM is absent (70_reset_and_hazards.md R135; 93_implementation_defined.md I11). Safe. -/
  | peripheralUnavailable
  /-- TRANSMIT before `configure_carrier` (70_reset_and_hazards.md R134; 93_implementation_defined.md I11). Safe. -/
  | carrierNotConfigured
  /-- another agent at the carrier while BUSY (70_reset_and_hazards.md R140; 93_implementation_defined.md I12). Safe. -/
  | carrierOwned
  deriving DecidableEq, Repr

/-- What a step finds to do: bits at a slot to decode and run in a state, nothing to run, or a stop. -/
inductive Fetched where
  | word (slot : Slot) (bits : Word) (s : State)
  | quiet (s : State)
  | fault (f : Fault)
  | refuse (r : Refusal)
  deriving DecidableEq, Repr

/-- The state right after reset (10_state.md R25 to R28): SEQ = IDLE, CARRIER = 0, BUSY = 0, and FR, REP, T0 hold no
value. The other fields are at the values their log entries name (INVENTORY.md, '## State'). -/
def State.reset : State where
  seq := .idle
  fr := none
  t0 := none
  carrier := false
  busy := false
  cmd := 0
  txReq := false
  txFrame := 0
  resetIn := []
  tempPolicy := .refuse
  platform := { present := true, carrierConfig := some { frequencyHz := 37900, dutyPercent := 40 } }
  host := []
  clock := 0
  timeIn := []
  draws := 0
  trace := []

end Sys2Proof.Machine
end

