-- ==== Sys2Proof/Machine/Flags.lean ====
section
/-! DEFINITION. The conditions the sequencer tests and the one flag there is: the elapsed-time test of a poll
(41_modulator.md R94, R107), and BUSY (10_state.md R18, R20: no operation sets any other flag). -/

namespace Sys2Proof.Machine

/-- `T −₆₄ T0`: elapsed time modulo 2^64, which a wrap of the counter does not disturb (41_modulator.md R107). -/
def elapsed64 (t0 t : Micros) : Micros := t - t0

/-- The end test of a phase: "an elapsed time exactly equal to the duration ends it" (41_modulator.md R94). -/
def phaseEnded (t0 t : Micros) (dur : Nat) : Bool := decide (dur ≤ (elapsed64 t0 t).toNat)

/-- BUSY set, at acceptance (41_modulator.md R97). -/
def State.setBusy (s : State) : State := { s with busy := true }

/-- BUSY cleared, at the end of a transmission (41_modulator.md R96) and by RESET (70_reset_and_hazards.md R131). -/
def State.clearBusy (s : State) : State := { s with busy := false }

/-- HOLD_BUSY (60_exceptions.md R115): a TRANSMIT request is pending while BUSY = 1. -/
def State.held (s : State) : Bool := s.busy && s.txReq

/-- The boot premises hold (70_reset_and_hazards.md R134, R135). Any configured frequency and duty cycle meets them: R134
names about 37.9 kHz and 40 %, with no tolerance stated, and no rule of the block reads them (log 30). -/
def Platform.ready (p : Platform) : Prop := p.present = true ∧ p.carrierConfig ≠ none

end Sys2Proof.Machine
end

