-- ==== Sys2Proof/Machine/Operands.lean ====
section
/-! DEFINITION. The operand forms: the field mappings of the Frame Encoder (40_encoder.md R69 to R75), and the phases of
a transmission (41_modulator.md R84 to R88) with their nominal schedule (R105) and their shape on the air (R106). -/

namespace Sys2Proof.Machine

/-! ### The Frame Encoder's field mappings -/

/-- The frame's function bit: 1 for POWER, 0 for SETTING (30_encoding.md R47, 40_encoder.md R73). -/
def functionBit : CmdFunction → BitVec 1
  | .setting => 0
  | .power => 1

/-- `mode_code`: a lookup table, "not sequential" (30_encoding.md R49, 40_encoder.md R70). -/
def modeCode : Mode → BitVec 3
  | .cool => 0b100
  | .heat => 0b010
  | .recycle => 0b110
  | .water => 0b001
  | .fan => 0b101

/-- `fan_code`: a lookup table (30_encoding.md R51, 40_encoder.md R71). -/
def fanCode : FanSpeed → BitVec 2
  | .low => 0b00
  | .med => 0b01
  | .hi => 0b10
  | .auto => 0b11

/-- `normalise_fan`: LOW in WATER mode, the fan asked for otherwise (40_encoder.md R72). -/
def normaliseFan : Mode → FanSpeed → FanSpeed
  | .water, _ => .low
  | .cool, f => f
  | .heat, f => f
  | .recycle, f => f
  | .fan, f => f

/-- `temp_code(t) = (4·t − 60) mod 256`, on unbounded integers and then narrowed (40_encoder.md R74, R82). -/
def tempCode (t : BitVec 8) : TempCode := BitVec.ofInt 8 (4 * (t.toNat : Int) - 60)

/-- `pack(f, m, s, c)` with shifts and masks (40_encoder.md R75). -/
def pack (f : BitVec 1) (m : BitVec 3) (s : BitVec 2) (c : TempCode) : Word :=
  f.setWidth 32 ||| (m.setWidth 32 <<< 1) ||| (s.setWidth 32 <<< 4) ||| (c.setWidth 32 <<< 9)

/-- The word of a command: the last four lines of 40_encoder.md R69's pseudocode. -/
def commandWord (c : Command) : Word :=
  pack (functionBit c.function) (modeCode c.mode) (fanCode (normaliseFan c.mode c.fan)) (tempCode c.temp)

/-- The refusal reason of a CMD16 value that names no Command (60_exceptions.md R114). -/
def refusalOfCmd : CmdError → Refusal
  | .cmdReserved => .refCmdRsvd
  | .modeSelector => .refModeSel

/-- ENCODE of a decoded command: the temperature precondition (40_encoder.md R79), then the word. -/
def encodeCommand (p : TempPolicy) (c : Command) : Except Refusal Word :=
  match p with
  | .refuse => if c.admitted then .ok (commandWord c) else .error .refTempRange
  | .wrap => .ok (commandWord c)

/-- `FRAME_OUT` as a function of `CMD`: the whole of 40_encoder.md R69, checks in the order of R80. -/
def frameOf (p : TempPolicy) (cmd : Cmd16) : Except Refusal Word :=
  match decodeCmd cmd with
  | .ok c => encodeCommand p c
  | .error e => .error (refusalOfCmd e)

/-! ### The phases of a transmission -/

/-- T_PRE_ON (00_scope.md section 4). -/
def tPreOn : Nat := 3050
/-- T_PRE_OFF (00_scope.md section 4). -/
def tPreOff : Nat := 2900
/-- T_HALF (00_scope.md section 4). -/
def tHalf : Nat := 950
/-- T_STOP (00_scope.md section 4). -/
def tStop : Nat := 4000

/-- `sym(b) = [(1 − b, 950), (b, 950)]` (41_modulator.md R84). -/
def sym (b : Bool) : List Phase := [⟨!b, tHalf⟩, ⟨b, tHalf⟩]

/-- `framePhases(w)`: preamble, 32 data symbols least significant bit first, trailer (41_modulator.md R86). -/
def framePhases (w : Word) : List Phase :=
  [⟨true, tPreOn⟩, ⟨false, tPreOff⟩] ++ (List.range 32).flatMap (fun i => sym (w.getLsbD i)) ++ sym true ++ sym false

/-- `txPhases(w)`: three repetitions, then the stop pulse (41_modulator.md R87). -/
def txPhases (w : Word) : List Phase :=
  framePhases w ++ framePhases w ++ framePhases w ++ [⟨true, tStop⟩]

/-- The named phase of the index `k`, by `j = k mod 70` (41_modulator.md R88). -/
def phaseOf (k : Fin 211) : Ph :=
  let j := k.val % 70
  let half : Half := if j % 2 = 0 then .first else .second
  if k.val = 210 then .stopOn
  else if j = 0 then .preOn
  else if j = 1 then .preOff
  else if j < 66 then .bit (Fin.ofNat 32 ((j - 2) / 2)) half
  else if j < 68 then .trl1 half
  else .trl0 half

/-- The level column of 41_modulator.md R88 under `FR = w`. -/
def levelOf (w : Word) : Ph → Bool
  | .preOn => true
  | .preOff => false
  | .bit i .first => !w.getLsbD i.val
  | .bit i .second => w.getLsbD i.val
  | .trl1 .first => false
  | .trl1 .second => true
  | .trl0 .first => true
  | .trl0 .second => false
  | .stopOn => true

/-- The phases that read a bit of FR: "It reads `FR[i]` only in phases `BIT(i, 0)` and `BIT(i, 1)`" (41_modulator.md R100). -/
def readsFR : Ph → Bool
  | .preOn => false
  | .preOff => false
  | .bit _ _ => true
  | .trl1 _ => false
  | .trl0 _ => false
  | .stopOn => false

/-- The duration column of 41_modulator.md R88, in microseconds. -/
def durOf : Ph → Nat
  | .preOn => tPreOn
  | .preOff => tPreOff
  | .bit _ _ => tHalf
  | .trl1 _ => tHalf
  | .trl0 _ => tHalf
  | .stopOn => tStop

/-- `P(w, k)` (41_modulator.md R87), by the table of R88. -/
def phaseAt (w : Word) (k : Fin 211) : Phase := ⟨levelOf w (phaseOf k), durOf (phaseOf k)⟩

/-- The repetition index of `RUN(k)`: `k div 70`, none for `k = 210` (10_state.md R14). -/
def repOf (k : Fin 211) : Option (Fin 3) :=
  if k.val = 210 then none else some (Fin.ofNat 3 (k.val / 70))

/-- The element that owns a named phase (30_encoding.md R64). -/
def elementOf : Ph → Element
  | .preOn => .preamble
  | .preOff => .preamble
  | .bit _ _ => .data
  | .trl1 _ => .trailer1
  | .trl0 _ => .trailer0
  | .stopOn => .stop

/-- The two-phase level string of the element a named phase belongs to, for a frame word `w` (30_encoding.md R59 to R61).
STOP's second character is the final off write. -/
def waveBits (w : Word) : Ph → Word
  | .preOn => 0b10
  | .preOff => 0b10
  | .bit i _ => if w.getLsbD i.val then 0b01 else 0b10
  | .trl1 _ => 0b01
  | .trl0 _ => 0b10
  | .stopOn => 0b10

/-- The waveform element that runs in phase `k` of a transmission of `w` (41_modulator.md R89 to R92). -/
def elementAt (w : Word) (k : Fin 211) : Instr :=
  match phaseOf k with
  | .preOn => .preamble
  | .preOff => .preamble
  | .bit i _ => if w.getLsbD i.val then .sym1 else .sym0
  | .trl1 _ => .trailer1
  | .trl0 _ => .trailer0
  | .stopOn => .stop

/-- The nominal start of phase `k`: the sum of the durations before it (41_modulator.md R105). -/
def nominalStart (w : Word) (k : Nat) : Nat := (((txPhases w).take k).map Phase.dur).sum

/-- The intervals on the air: consecutive phases of one level are one interval (41_modulator.md R106). -/
def air : List Phase → List Phase
  | [] => []
  | p :: ps =>
    match air ps with
    | [] => [p]
    | q :: qs => if p.level = q.level then ⟨p.level, p.dur + q.dur⟩ :: qs else p :: q :: qs

end Sys2Proof.Machine
end

