-- ==== Sys2Proof/Machine/Ops.lean ====
section
/-! DEFINITION. The named operations on the state: events and the timer, the reads that can fault, BeginPhase, Advance,
Finish, acceptance and RESET (41_modulator.md R93 to R97, 70_reset_and_hazards.md R131), the host's operations on the
ports, and the fetch: what a step finds to do (60_exceptions.md R119). There is no exception to take (R111, R120). -/

namespace Sys2Proof.Machine

/-! ### Views and reads -/

/-- `CARRIER_EN`: "Always equal to `CARRIER`" (10_state.md R11). -/
def State.carrierEn (s : State) : Bool := s.carrier

/-- The `TIMER` port: `c mod 2^64` (60_exceptions.md R124). -/
def State.timer (s : State) : Micros := BitVec.ofNat 64 s.clock

/-- `FRAME_OUT`, combinational in CMD (10_state.md R29). -/
def State.frameOut (s : State) : Except Refusal Word := frameOf s.tempPolicy s.cmd

/-- `TX_DONE`: the newest event is the end of a transmission (10_state.md R10, 41_modulator.md R96; log 8). -/
def State.txDone (s : State) : Bool :=
  match s.trace with
  | [] => false
  | e :: _ => e.kind = .txDone

/-- A read of FR: a fault while it holds no value (10_state.md R28). -/
def State.readFR (s : State) : Except Fault Word :=
  match s.fr with
  | some w => .ok w
  | none => .error .frNoValue

/-- The frame word as the phase `p` uses it: a data phase reads FR, and faults while it holds no value (10_state.md R28); the
other phases read nothing of it (41_modulator.md R100), so that any word will do for them (Laws/Ops.lean,
`levelOf_of_not_readsFR`). -/
def State.frameFor (s : State) (p : Ph) : Except Fault Word :=
  match s.fr with
  | some w => .ok w
  | none => if readsFR p then s.readFR else .ok 0

/-- A read of T0: a fault while it holds no value (10_state.md R28). -/
def State.readT0 (s : State) : Except Fault Micros :=
  match s.t0 with
  | some t => .ok t
  | none => .error .t0NoValue

/-- A read of REP: a fault in IDLE, where it holds no value (10_state.md R28); none in STOP_ON, where "`REP` has no meaning"
(R14). -/
def State.readRep (s : State) : Except Fault (Option (Fin 3)) :=
  match s.seq with
  | .idle => .error .repNoValue
  | .run k => .ok (repOf k)

/-! ### Events and the timer -/

/-- The coming draw number `n`, counted from 0: the one the state lists, or a free value (60_exceptions.md R124; log 6). -/
def State.drawAt (s : State) (n : Nat) : Nat :=
  match s.timeIn[n]? with
  | none => Config.timerAdvance (s.draws + n)
  | some a => a

/-- The draw before the next event. -/
def State.nextAdvance (s : State) : Nat := s.drawAt 0

/-- Time passes before an event: one draw (60_exceptions.md R124; log 6, log 19). -/
def State.tick (s : State) : State :=
  { s with clock := s.clock + s.nextAdvance, timeIn := s.timeIn.tail, draws := s.draws + 1 }

/-- An event is recorded at the clock it happens at (20_memory.md R40). -/
def State.record (s : State) (e : EventKind) : State :=
  { s with trace := ⟨s.clock, e⟩ :: s.trace }

/-- `CarrierWrite(on)`: the level and the event, even when the level stays (20_memory.md R38, 41_modulator.md R93). -/
def State.carrierWrite (s : State) (on : Bool) : State :=
  { s.tick.record (.carrierWrite on) with carrier := on }

/-- `TimerRead()`: no side effect but the event; the value it returns is `timer` of the state it leaves (20_memory.md R37). -/
def State.timerRead (s : State) : State := s.tick.record (.timerRead s.tick.timer)

/-! ### The sequencer -/

/-- `BeginPhase(k)`: the carrier write, then the start read into T0, then SEQ (41_modulator.md R93). -/
def State.beginPhase (s : State) (w : Word) (k : Fin 211) : State :=
  let s' := (s.carrierWrite (levelOf w (phaseOf k))).timerRead
  { s' with t0 := some s'.timer, seq := .run k }

/-- `Finish()`: carrier off, IDLE, BUSY clear, TX_DONE; no timed wait (41_modulator.md R96). -/
def State.finish (s : State) : State :=
  { (s.carrierWrite false).clearBusy with seq := .idle }.tick.record .txDone

/-- `Advance(k)`: the next phase in the same step, or Finish after phase 210 (41_modulator.md R95). -/
def State.advance (s : State) (w : Word) (k : Fin 211) : State :=
  if h : k.val + 1 < 211 then s.beginPhase w ⟨k.val + 1, h⟩ else s.finish

/-- `Poll()`: one timer read; the phase ends if its duration has elapsed, and nothing else changes if not
(41_modulator.md R94). -/
def State.poll (s : State) (w : Word) (t0 : Micros) (k : Fin 211) : State :=
  if phaseEnded t0 s.timerRead.timer (durOf (phaseOf k)) then s.timerRead.advance w k else s.timerRead

/-- The phase that a poll leaves the sequencer in, whose level FR may decide: the next one if the poll ends phase `k` and is
not the last, else phase `k` (41_modulator.md R94, R95). -/
def State.phaseAfterPoll (s : State) (t0 : Micros) (k : Fin 211) : Ph :=
  if phaseEnded t0 s.timerRead.timer (durOf (phaseOf k)) then
    if h : k.val + 1 < 211 then phaseOf ⟨k.val + 1, h⟩ else phaseOf k
  else phaseOf k

/-- One step of a waveform element: a poll if it is the element of the current phase (41_modulator.md R89 to R92);
outside its phases it is not selected, so nothing is done (30_encoding.md R64; log 14). The poll reads T0 (R94), and FR
only where it is in a data phase or begins one (R100; log 17). -/
def State.runElement (s : State) (i : Instr) : Host.Outcome State Fault Refusal :=
  match s.seq with
  | .idle => .next s
  | .run k =>
    match s.frameFor (phaseOf k) with
    | .error f => .fault f
    | .ok w =>
      if elementAt w k = i then
        match s.readT0 with
        | .error f => .fault f
        | .ok t0 =>
          match s.frameFor (s.phaseAfterPoll t0 k) with
          | .error f => .fault f
          | .ok w' => .next (s.poll w' t0 k)
      else .next s

/-- Acceptance, in one step: FR, BUSY, BeginPhase(0); the request is taken (41_modulator.md R97; log 5). -/
def State.accept (s : State) (w : Word) : State :=
  { ({ s with txFrame := w, txReq := false }.tick.record (.accept w)).setBusy with fr := some w }.beginPhase w 0

/-- A request made while BUSY is held: TX_REQ and TX_FRAME stand, nothing else changes (41_modulator.md R98). -/
def State.hold (s : State) (w : Word) : State := { s with txFrame := w, txReq := true }

/-- A TRANSMIT of `w`: outside the model without its boot premises (70_reset_and_hazards.md R134, R135), where the order in
which the two premises and BUSY are tested is the model's choice (log 28), else held while
BUSY and accepted otherwise (41_modulator.md R83). Any configured carrier will do (log 30). -/
def State.requestTransmit (s : State) (w : Word) : Host.Outcome State Fault Refusal :=
  if s.platform.present = false then .refused .peripheralUnavailable
  else if s.platform.carrierConfig = none then .refused .carrierNotConfigured
  else if s.busy then .next (s.hold w)
  else .next (s.accept w)

/-- RESET, in one step: IDLE, BUSY and CARRIER 0, FR and T0 (and with SEQ also REP) without a value, a held request
dropped, no TX_DONE (70_reset_and_hazards.md R131, R132; log 4). -/
def State.applyReset (s : State) : State :=
  { s.clearBusy with seq := .idle, fr := none, t0 := none, carrier := false, txReq := false }.tick.record .reset

/-! ### The ports -/

/-- The host drives CMD (10_state.md R10). -/
def State.driveCmd (s : State) (cmd : Cmd16) : State := { s with cmd := cmd }

/-- The host drives one field of TX_FRAME: the bits under `mask` become those of `value` (20_memory.md R43; log 13). -/
def State.placeField (s : State) (mask value : Word) : State :=
  { s with txFrame := (s.txFrame &&& ~~~mask) ||| value }

/-- The host drives the field that the slot names, if it names one, with the value `bits` has there (20_memory.md R43). -/
def State.driveField (s : State) (slot : Slot) (bits : Word) : State :=
  match slot with
  | .field f => s.placeField (fieldMask f) (bits &&& fieldMask f)
  | .cmd => s
  | .txFrame => s
  | .wave _ => s

/-- The host drives TX_FRAME, with no request (20_memory.md R43, 70_reset_and_hazards.md R142). -/
def State.driveTxFrame (s : State) (w : Word) : State := { s with txFrame := w }

/-- The level of RESET at this step (10_state.md R10; log 4). -/
def State.resetLevel (s : State) : Bool :=
  match s.resetIn with
  | [] => false
  | b :: _ => b

/-- The state once this step's level of RESET has been taken. -/
def State.nextResetIn (s : State) : State := { s with resetIn := s.resetIn.tail }

/-- An agent other than the block at the carrier's PWM: outside the model while BUSY (70_reset_and_hazards.md R140;
log 11), else the PWM's own matter. Every `configure_carrier` while idle replaces the configuration (log 29). -/
def State.foreignAtCarrier (s s' : State) : Fetched :=
  if s.busy then .refuse .carrierOwned else .quiet s'

/-! ### What a step finds to do -/

/-- The sequencer's turn: the element of its phase while RUN; in IDLE a pending request, or nothing (41_modulator.md
R94, R97, R99). A poll comes before an acceptance (60_exceptions.md R119). -/
def State.fetchSequencer (s : State) : Fetched :=
  match s.seq with
  | .run k =>
    match s.frameFor (phaseOf k) with
    | .error f => .fault f
    | .ok w => .word (.wave (elementOf (phaseOf k))) (waveBits w (phaseOf k)) s
  | .idle => if s.txReq then .word .txFrame s.txFrame s else .quiet s

/-- The host's turn, with `s` the state in which its operation is already taken from the list. What a second
`configure_carrier` does is the model's choice (log 29), and so is that `TRANSMIT FRAME_OUT` reports FRAME_OUT's reason
before a boot premise that is missing too (log 28). -/
def State.fetchHost (s : State) (op : HostOp) : Fetched :=
  match op with
  | .encode cmd => .word .cmd (cmd.setWidth 32) s
  | .transmit w => .word .txFrame w s
  | .transmitFrameOut =>
    match s.frameOut with
    | .ok w => .word .txFrame w s
    | .error r => .refuse r
  | .setField f bits => .word (.field f) bits s
  | .driveTxFrame w => .quiet (s.driveTxFrame w)
  | .configureCarrier c => s.foreignAtCarrier { s with platform := { s.platform with carrierConfig := some c } }
  | .foreignSetCarrier _ => s.foreignAtCarrier s
  | .idle => s.fetchSequencer

/-- The fetch: the host has no step while its request is pending (41_modulator.md R98); where it has one it takes it
(log 3), and otherwise the sequencer's turn comes. -/
def State.fetch (s : State) : Fetched :=
  if s.txReq then s.fetchSequencer
  else
    match s.host with
    | [] => s.fetchSequencer
    | op :: rest => { s with host := rest }.fetchHost op

/-- What a step does with bits that name no operation: a CMD16 value is refused (40_encoder.md R80); the host's value of a
frame field is driven all the same, since every word may stand on TX_FRAME (20_memory.md R43, 30_encoding.md R66; log 26);
a level string selects no element, and the sequencer never asks for such a one (30_encoding.md R64; log 26). -/
def State.unnamed (s : State) (slot : Slot) (bits : Word) (e : DecodeError) : Host.Outcome State Fault Refusal :=
  match e with
  | .cmd c => .refused (refusalOfCmd c)
  | .unassignedMode => .next (s.driveField slot bits)
  | .reservedNotZero => .next (s.driveField slot bits)
  | .noWaveRow => .next s

/-! ### Placing a table word where the next step fetches it (log 16) -/

/-- A phase at which the sequencer's current element is a data symbol, running a frame word whose bit 0 is `b`. -/
def State.placeDataSymbol (s : State) (b : Bool) : State :=
  { s with seq := .run 2, fr := some (if b then 1 else 0), t0 := some s.timer, busy := true, carrier := !b,
           host := .idle :: s.host, resetIn := false :: s.resetIn }

/-- A host operation first in the list, with the host not waiting and RESET released at the next step. -/
def State.placeHostOp (s : State) (op : HostOp) : State :=
  { s with host := op :: s.host, txReq := false, resetIn := false :: s.resetIn }

/-- The table word `w` of `nbits` bits, placed at the slot that `decodeTableWord` reads it at. -/
def State.placeTableWord (s : State) (nbits w : Nat) : State :=
  match tableSlot nbits w with
  | .cmd => s.placeHostOp (.encode (BitVec.ofNat 16 w))
  | .txFrame => s.placeHostOp (.transmit (BitVec.ofNat 32 w))
  | .field f => s.placeHostOp (.setField f (BitVec.ofNat 32 w))
  | .wave _ => s.placeDataSymbol (decide (w = 1))

end Sys2Proof.Machine
end

