-- ==== Sys2Proof/Machine/FrameFields.lean ====
section
/-! DEFINITION. The frame-field rows (30_encoding.md R47 to R55): each puts its value into its field of the frame word the
host drives on TX_FRAME, so that the word then matches the row, `(value & mask) = match` (R64), and keeps every other
bit. ENCODE's word is what the rows of its command build (log 13). -/

namespace Sys2Proof.Machine

/-- FN_SETTING: frame bit 0 = 0 (30_encoding.md R47). -/
def execFnSetting (s : State) : Host.Outcome State Fault Refusal := .next (s.placeField 0x1 0x0)

/-- FN_POWER: frame bit 0 = 1 (30_encoding.md R47). -/
def execFnPower (s : State) : Host.Outcome State Fault Refusal := .next (s.placeField 0x1 0x1)

/-- MODE_COOL: the code 100 into frame bits 3:1 (30_encoding.md R49). -/
def execModeCool (s : State) : Host.Outcome State Fault Refusal := .next (s.placeField 0xE 0x8)

/-- MODE_HEAT: the code 010 into frame bits 3:1 (30_encoding.md R49). -/
def execModeHeat (s : State) : Host.Outcome State Fault Refusal := .next (s.placeField 0xE 0x4)

/-- MODE_RECYCLE: the code 110 into frame bits 3:1 (30_encoding.md R49). -/
def execModeRecycle (s : State) : Host.Outcome State Fault Refusal := .next (s.placeField 0xE 0xC)

/-- MODE_WATER: the code 001 into frame bits 3:1 (30_encoding.md R49). -/
def execModeWater (s : State) : Host.Outcome State Fault Refusal := .next (s.placeField 0xE 0x2)

/-- MODE_FAN: the code 101 into frame bits 3:1 (30_encoding.md R49). -/
def execModeFan (s : State) : Host.Outcome State Fault Refusal := .next (s.placeField 0xE 0xA)

/-- FAN_LOW: the code 00 into frame bits 5:4 (30_encoding.md R51). -/
def execFanLow (s : State) : Host.Outcome State Fault Refusal := .next (s.placeField 0x30 0x00)

/-- FAN_MED: the code 01 into frame bits 5:4 (30_encoding.md R51). -/
def execFanMed (s : State) : Host.Outcome State Fault Refusal := .next (s.placeField 0x30 0x10)

/-- FAN_HI: the code 10 into frame bits 5:4 (30_encoding.md R51). -/
def execFanHi (s : State) : Host.Outcome State Fault Refusal := .next (s.placeField 0x30 0x20)

/-- FAN_AUTO: the code 11 into frame bits 5:4 (30_encoding.md R51). -/
def execFanAuto (s : State) : Host.Outcome State Fault Refusal := .next (s.placeField 0x30 0x30)

/-- TEMP: the temperature code into frame bits 16:9 (30_encoding.md R52). -/
def execTemp (code : TempCode) (s : State) : Host.Outcome State Fault Refusal :=
  .next (s.placeField 0x1FE00 (code.setWidth 32 <<< 9))

/-- RSVD_8_6: 0 into frame bits 8:6 (30_encoding.md R54). -/
def execRsvd8to6 (s : State) : Host.Outcome State Fault Refusal := .next (s.placeField 0x1C0 0x0)

/-- RSVD_31_17: 0 into frame bits 31:17 (30_encoding.md R55). -/
def execRsvd31to17 (s : State) : Host.Outcome State Fault Refusal := .next (s.placeField 0xFFFE0000 0x0)

end Sys2Proof.Machine
end

