-- ==== Sys2Proof/Machine/HostOperations.lean ====
section
/-! DEFINITION. The two host operations, ENCODE (40_encoder.md R69) and TRANSMIT (41_modulator.md R83). -/

namespace Sys2Proof.Machine

/-- ENCODE: CMD carries the command and FRAME_OUT its word; no state element changes (40_encoder.md R69, R76; log 21).
Refused where the temperature breaks the precondition (R79); the other two checks are the decoder's (R80). -/
def execEncode (c : Command) (s : State) : Host.Outcome State Fault Refusal :=
  match encodeCommand s.tempPolicy c with
  | .ok _ => .next (s.driveCmd (packCmd c))
  | .error r => .refused r

/-- TRANSMIT: held while BUSY, accepted otherwise (41_modulator.md R83, R97, R98). -/
def execTransmit (w : Word) (s : State) : Host.Outcome State Fault Refusal := s.requestTransmit w

end Sys2Proof.Machine
end

