-- ==== Sys2Proof/Machine/Waveform.lean ====
section
/-! DEFINITION. The waveform elements, issued by the sequencer (41_modulator.md R89 to R92): each step of one is one poll
of the phase it is in (R94), which stays, begins the next phase (R95) or, for STOP, finishes (R96). -/

namespace Sys2Proof.Machine

/-- PREAMBLE: phases 70r and 70r + 1, MARK 3050 and SPACE 2900 (41_modulator.md R89). -/
def execPreamble (s : State) : Host.Outcome State Fault Refusal := s.runElement .preamble

/-- SYM1: a data symbol with `FR[i] = 1`, SPACE 950 and MARK 950 (41_modulator.md R90). -/
def execSym1 (s : State) : Host.Outcome State Fault Refusal := s.runElement .sym1

/-- SYM0: a data symbol with `FR[i] = 0`, MARK 950 and SPACE 950 (41_modulator.md R90). -/
def execSym0 (s : State) : Host.Outcome State Fault Refusal := s.runElement .sym0

/-- TRAILER_1: phases 70r + 66 and 70r + 67, the symbol of 1 (41_modulator.md R91). -/
def execTrailer1 (s : State) : Host.Outcome State Fault Refusal := s.runElement .trailer1

/-- TRAILER_0: phases 70r + 68 and 70r + 69, the symbol of 0 (41_modulator.md R91). -/
def execTrailer0 (s : State) : Host.Outcome State Fault Refusal := s.runElement .trailer0

/-- STOP: phase 210, MARK 4000, then Finish (41_modulator.md R92, R96). -/
def execStop (s : State) : Host.Outcome State Fault Refusal := s.runElement .stop

end Sys2Proof.Machine
end

