-- ==== Sys2Proof/Machine/Dispatch.lean ====
section
/-! DEFINITION. One arm per instruction: a direct call of its meaning. -/

namespace Sys2Proof.Machine

/-- The meaning of each operation of spec/opcode_table.json. -/
def exec (i : Instr) (s : State) : Host.Outcome State Fault Refusal :=
  match i with
  | .encode c => Sys2Proof.Machine.execEncode c s
  | .transmit w => Sys2Proof.Machine.execTransmit w s
  | .fnSetting => Sys2Proof.Machine.execFnSetting s
  | .fnPower => Sys2Proof.Machine.execFnPower s
  | .modeCool => Sys2Proof.Machine.execModeCool s
  | .modeHeat => Sys2Proof.Machine.execModeHeat s
  | .modeRecycle => Sys2Proof.Machine.execModeRecycle s
  | .modeWater => Sys2Proof.Machine.execModeWater s
  | .modeFan => Sys2Proof.Machine.execModeFan s
  | .fanLow => Sys2Proof.Machine.execFanLow s
  | .fanMed => Sys2Proof.Machine.execFanMed s
  | .fanHi => Sys2Proof.Machine.execFanHi s
  | .fanAuto => Sys2Proof.Machine.execFanAuto s
  | .temp code => Sys2Proof.Machine.execTemp code s
  | .rsvd8to6 => Sys2Proof.Machine.execRsvd8to6 s
  | .rsvd31to17 => Sys2Proof.Machine.execRsvd31to17 s
  | .preamble => Sys2Proof.Machine.execPreamble s
  | .sym1 => Sys2Proof.Machine.execSym1 s
  | .sym0 => Sys2Proof.Machine.execSym0 s
  | .trailer1 => Sys2Proof.Machine.execTrailer1 s
  | .trailer0 => Sys2Proof.Machine.execTrailer0 s
  | .stop => Sys2Proof.Machine.execStop s

end Sys2Proof.Machine
end

