-- ==== Sys2Proof/Machine/Step.lean ====
section
/-! DEFINITION. One step: RESET first, then what the fetch finds, decoded and run (60_exceptions.md R119). -/

namespace Sys2Proof.Machine

/-- One step of the machine, in the priority order of 60_exceptions.md R119. With nothing to do the machine waits
(20_memory.md R39; log 18). -/
def step (s : State) : Host.Outcome State Fault Refusal :=
  if s.resetLevel then .next s.nextResetIn.applyReset
  else
    match s.nextResetIn.fetch with
    | .word slot bits t =>
      match decode slot bits with
      | .ok i => exec i t
      | .error e => t.unnamed slot bits e
    | .quiet t => .next t
    | .fault f => .fault f
    | .refuse r => .refused r

/-- The state `s` with the table word `w` of `nbits` bits where the next step fetches it (log 16). -/
def State.withFetchWord (s : State) (nbits w : Nat) : State := s.placeTableWord nbits w

end Sys2Proof.Machine
end

