-- ==== Sys2Proof/Safety.lean ====
section
/-! DEFINITION. What counts as a right state and a right run, in the terms the statements use: the block's invariant
(10_state.md R30), the record of a transmission in the trace (41_modulator.md R103, R110), time (R104, 60_exceptions.md
R124), and helpers that run a list of instructions or say which element a phase index belongs to. -/

namespace Sys2Proof.Machine

/-! ### The block's invariant -/

/-- The block's invariant: BUSY exactly while SEQ is not IDLE (10_state.md R30); a running phase has FR and T0 and holds its
level on the carrier (41_modulator.md R93, R97); an idle block is dark (R96, 10_state.md R26). -/
structure State.Inv (s : State) : Prop where
  busy_iff : s.busy = true ↔ s.seq ≠ .idle
  running : ∀ k, s.seq = .run k → ∃ w t0, s.fr = some w ∧ s.t0 = some t0 ∧ s.carrier = levelOf w (phaseOf k)
  dark : s.seq = .idle → s.carrier = false

/-! ### What the trace says of a transmission -/

/-- The word last accepted and the levels written since, oldest first; none after a RESET (41_modulator.md R110). -/
def sinceAccept : List Event → Option (Word × List Bool)
  | [] => none
  | e :: es =>
    match e.kind with
    | .accept w => some (w, [])
    | .carrierWrite on => (sinceAccept es).map fun p => (p.1, p.2 ++ [on])
    | .timerRead _ => sinceAccept es
    | .txDone => sinceAccept es
    | .reset => none

/-- How many timer reads there were since the last acceptance (41_modulator.md R103). -/
def readsSinceAccept : List Event → Nat
  | [] => 0
  | e :: es =>
    match e.kind with
    | .accept _ => 0
    | .carrierWrite _ => readsSinceAccept es
    | .timerRead _ => readsSinceAccept es + 1
    | .txDone => readsSinceAccept es
    | .reset => 0

/-- The clock at which the carrier was last written (41_modulator.md R104, `c(W_k)`). -/
def lastWriteAt : List Event → Option Nat
  | [] => none
  | e :: es =>
    match e.kind with
    | .carrierWrite _ => some e.clock
    | .accept _ => lastWriteAt es
    | .timerRead _ => lastWriteAt es
    | .txDone => lastWriteAt es
    | .reset => lastWriteAt es

/-- The levels of a whole transmission of `w`, phase by phase (41_modulator.md R87). -/
def txLevels (w : Word) : List Bool := (txPhases w).map Phase.level

/-- In `RUN(k)` the trace shows the acceptance of the word in FR, since then one write for each of the phases 0 to `k` at its
level, and at least one start read a phase and one poll a finished phase (41_modulator.md R103, R110). -/
def State.WaveOnTrace (s : State) : Prop :=
  ∀ k w, s.seq = .run k → s.fr = some w →
    sinceAccept s.trace = some (w, (txLevels w).take (k.val + 1)) ∧ 2 * k.val + 1 ≤ readsSinceAccept s.trace

/-! ### Time -/

/-- Events are in the order of the clock, none later than now (60_exceptions.md R124: "never decreases"). -/
def State.InOrder (s : State) : Prop := List.Pairwise (fun a b => b ≤ a) (s.clock :: s.trace.map Event.clock)

/-- In `RUN(k)`: the carrier was last written at `cw`, T0 was read at `c0`, and neither is later than now
(41_modulator.md R93, R104). -/
def State.PhaseStarted (s : State) : Prop :=
  ∀ k, s.seq = .run k → ∃ cw c0, lastWriteAt s.trace = some cw ∧ cw ≤ c0 ∧ c0 ≤ s.clock ∧ s.t0 = some (BitVec.ofNat 64 c0)

/-- As `PhaseStarted`, where no draw is longer than `gap`: the start read came within `gap` of the write, and the phase's
duration has not passed yet at the last poll (92_eei_decisions.md D20; log 7). -/
def State.OnTime (gap : Nat) (s : State) : Prop :=
  ∀ k, s.seq = .run k → ∃ cw c0, lastWriteAt s.trace = some cw ∧ cw ≤ c0 ∧ c0 ≤ cw + gap ∧ c0 ≤ s.clock
    ∧ s.clock < c0 + durOf (phaseOf k) ∧ s.t0 = some (BitVec.ofNat 64 c0)

/-- None of the next `n` draws is longer than `gap` (the OPEN POLL_OVERSHOOT as an argument; log 7). -/
def State.DrawsWithin (gap n : Nat) (s : State) : Prop := ∀ i < n, s.drawAt i ≤ gap

/-- The clock after the coming `n` draws. -/
def State.clockAfter (s : State) (n : Nat) : Nat := s.clock + ((List.range n).map s.drawAt).sum

/-- How many of the coming `n` draws move the clock. -/
def State.moves (s : State) (n : Nat) : Nat := (List.range n).countP fun i => decide (s.drawAt i ≠ 0)

/-- Fairness: "for every bound `B`, the clock eventually exceeds `B`" (60_exceptions.md R124). It is a rule of the model's
clock, so every state has it (Obligations.ClockIsMonotonicAndFair); I13 of 93_implementation_defined.md excludes the rest. -/
def State.FairTimer (s : State) : Prop := ∀ bound, ∃ n, bound < s.clockAfter n

/-! ### The host's request line -/

/-- The host's next operation is `op` and it can take it: RESET is released and no request is pending. -/
def State.hostReady (s : State) (op : HostOp) (rest : List HostOp) : Prop :=
  s.resetLevel = false ∧ s.txReq = false ∧ s.host = op :: rest

/-- The state in which a host operation taken from the list runs. -/
def State.afterHostOp (s : State) (rest : List HostOp) : State := { s.nextResetIn with host := rest }

/-! ### Helpers of the statements -/

/-- Instructions one after the other, stopping at the first that gives no next state. -/
def execAll : List Instr → State → Host.Outcome State Fault Refusal
  | [], s => .next s
  | i :: is, s =>
    match exec i s with
    | .next t => execAll is t
    | .fault f => .fault f
    | .refused r => .refused r

/-- The frame-field instructions of the table, with the bits of the frame word each one sets (30_encoding.md R53). -/
inductive FieldRow : Instr → Word → Word → Prop where
  | fnSetting : FieldRow .fnSetting 0x1 0x0
  | fnPower : FieldRow .fnPower 0x1 0x1
  | modeCool : FieldRow .modeCool 0xE 0x8
  | modeHeat : FieldRow .modeHeat 0xE 0x4
  | modeRecycle : FieldRow .modeRecycle 0xE 0xC
  | modeWater : FieldRow .modeWater 0xE 0x2
  | modeFan : FieldRow .modeFan 0xE 0xA
  | fanLow : FieldRow .fanLow 0x30 0x00
  | fanMed : FieldRow .fanMed 0x30 0x10
  | fanHi : FieldRow .fanHi 0x30 0x20
  | fanAuto : FieldRow .fanAuto 0x30 0x30
  | temp (code : TempCode) : FieldRow (.temp code) 0x1FE00 (code.setWidth 32 <<< 9)
  | rsvd8to6 : FieldRow .rsvd8to6 0x1C0 0x0
  | rsvd31to17 : FieldRow .rsvd31to17 0xFFFE0000 0x0

/-- Which waveform element runs at phase index `k` of a transmission of `w`, by the indices that 41_modulator.md R89 to R92
give each element. -/
inductive ElementPhase (w : Word) : Instr → Nat → Prop where
  | preamble (r h : Nat) (hr : r < 3) (hh : h < 2) : ElementPhase w .preamble (70 * r + h)
  | sym1 (r i h : Nat) (hr : r < 3) (hi : i < 32) (hh : h < 2) (hb : w.getLsbD i = true) :
      ElementPhase w .sym1 (70 * r + 2 + 2 * i + h)
  | sym0 (r i h : Nat) (hr : r < 3) (hi : i < 32) (hh : h < 2) (hb : w.getLsbD i = false) :
      ElementPhase w .sym0 (70 * r + 2 + 2 * i + h)
  | trailer1 (r h : Nat) (hr : r < 3) (hh : h < 2) : ElementPhase w .trailer1 (70 * r + 66 + h)
  | trailer0 (r h : Nat) (hr : r < 3) (hh : h < 2) : ElementPhase w .trailer0 (70 * r + 68 + h)
  | stop : ElementPhase w .stop 210

end Sys2Proof.Machine
end

