-- ==== Sys2Proof/Certificates/Slice0/Obligations.lean ====
section
/-! DEFINITION. The statements for the provers, by family: encodings, ENCODE, the frame-field rows, TRANSMIT, the phases
of a transmission, the waveform elements, the invariants, time, RESET, and the step. "log n" names an assumption. -/

open Sys2Proof Sys2Proof.Machine

/-! ### Encodings -/

/-- Every instruction, with every operand, decodes from its own encoding (30_encoding.md section 4). -/
def Obligations.DecodeOfEncodeIsTheInstruction : Prop :=
  ∀ i : Instr, decode (encode i).1 (encode i).2 = .ok i

/-- What decodes at a slot is an instruction of that slot, whose table row the bits match; and at the two ports no bit of the
port's width is dropped: the instruction encodes to the same bits (30_encoding.md R64, R67). -/
def Obligations.DecodedBitsMatchTheirRow : Prop :=
  ∀ slot bits i, decode slot bits = .ok i →
    (encode i).1 = slot ∧ bits &&& rowMask i = rowMatch i ∧
    (slot = .cmd → (encode i).2 = (bits.setWidth 16).setWidth 32) ∧ (slot = .txFrame → (encode i).2 = bits)

/-- A frame-field row or a WAVE row is decoded from exactly the words with `(value & mask) = match`, and TEMP gives the code
`(word & 0x1FE00) >> 9` of every word (30_encoding.md R64, and the table's note at TEMP). -/
def Obligations.RowsDecodeExactlyTheirWords : Prop :=
  (∀ i f w, (encode i).1 = .field f → f ≠ .tempCode → (decode (.field f) w = .ok i ↔ w &&& rowMask i = rowMatch i)) ∧
  (∀ i e w, (encode i).1 = .wave e → (decode (.wave e) w = .ok i ↔ w &&& rowMask i = rowMatch i)) ∧
  (∀ w : Word, decode (.field .tempCode) w = .ok (.temp (((w &&& 0x1FE00) >>> 9).setWidth 8)))

/-- Words written out from the spec's encodings, one or more a family (95_test_vectors.md W1 to W3, W8; opcode_table.json). -/
def Obligations.SpecWordsDecode : Prop :=
  decode .cmd 0b0001011000110001 = .ok (.encode ⟨.power, .cool, .auto, 22⟩) ∧
  decode .cmd 0b0001100100100110 = .ok (.encode ⟨.setting, .water, .hi, 25⟩) ∧
  decode .txFrame 0x00003839 = .ok (.transmit 0x00003839) ∧
  decode (.field .function) 0x00003839 = .ok .fnPower ∧
  decode (.field .mode) 0x00003839 = .ok .modeCool ∧
  decode (.field .fanSpeed) 0x00003839 = .ok .fanAuto ∧
  decode (.field .tempCode) 0x00003839 = .ok (.temp 0b00011100) ∧
  decode (.wave .data) 0b01 = .ok .sym1 ∧
  decode (.wave .data) 0b10 = .ok .sym0

/-- CMD16: where each field stands and what its selectors name; the reserved bits and the mode selectors 5 to 7 are rejected
by name (30_encoding.md R46, R48, R50). -/
def Obligations.CommandFieldsStandWhereTheSpecSays : Prop :=
  (∀ v : Cmd16, v.extractLsb' 6 2 = 0 → (v.extractLsb' 1 3).toNat < 5 → ∃ c, decodeCmd v = .ok c ∧
    selOfFunction c.function = v.extractLsb' 0 1 ∧ selOfMode c.mode = v.extractLsb' 1 3 ∧
    selOfFan c.fan = v.extractLsb' 4 2 ∧ c.temp = v.extractLsb' 8 8) ∧
  (∀ v : Cmd16, v.extractLsb' 6 2 ≠ 0 → decodeCmd v = .error .cmdReserved) ∧
  (∀ v : Cmd16, v.extractLsb' 6 2 = 0 → 5 ≤ (v.extractLsb' 1 3).toNat → decodeCmd v = .error .modeSelector) ∧
  (selOfMode .cool = 0 ∧ selOfMode .heat = 1 ∧ selOfMode .recycle = 2 ∧ selOfMode .water = 3 ∧ selOfMode .fan = 4) ∧
  (selOfFan .low = 0 ∧ selOfFan .med = 1 ∧ selOfFan .hi = 2 ∧ selOfFan .auto = 3)

/-! ### ENCODE -/

/-- ENCODE of an admitted command, or of any command under `wrap`: CMD carries the command and FRAME_OUT gives the word of
40_encoder.md R69's pseudocode. That the host's ENCODE drives CMD is the model's (log 21). -/
def Obligations.EncodeGivesThePackedWord : Prop :=
  ∀ (s : State) (c : Command), c.admitted = true ∨ s.tempPolicy = .wrap →
    exec (.encode c) s = .next (s.driveCmd (packCmd c)) ∧
    (s.driveCmd (packCmd c)).frameOut =
      .ok (pack (functionBit c.function) (modeCode c.mode) (fanCode (normaliseFan c.mode c.fan)) (tempCode c.temp))

/-- The temperature precondition under both values of TEMP_POLICY (40_encoder.md R79). -/
def Obligations.TemperaturePrecondition : Prop :=
  ∀ (s : State) (c : Command),
    (s.tempPolicy = .refuse → (c.temp.toNat < 16 ∨ 30 < c.temp.toNat) → exec (.encode c) s = .refused .refTempRange) ∧
    (s.tempPolicy = .wrap → ∃ t, exec (.encode c) s = .next t ∧ ∃ w, t.frameOut = .ok w ∧
      w.extractLsb' 9 8 = tempCode c.temp)

/-- ENCODE writes no state element and no port but CMD (40_encoder.md R69, R76). -/
def Obligations.EncodeChangesOnlyCmd : Prop :=
  ∀ (s t : State) (c : Command), exec (.encode c) s = .next t →
    t.seq = s.seq ∧ t.fr = s.fr ∧ t.t0 = s.t0 ∧ t.carrier = s.carrier ∧ t.busy = s.busy ∧ t.txReq = s.txReq ∧
    t.txFrame = s.txFrame ∧ t.resetIn = s.resetIn ∧ t.tempPolicy = s.tempPolicy ∧ t.platform = s.platform ∧
    t.host = s.host ∧ t.clock = s.clock ∧ t.timeIn = s.timeIn ∧ t.draws = s.draws ∧ t.trace = s.trace

/-- Which refusal a raw CMD value gets, in the order REF_CMD_RSVD, REF_MODE_SEL, REF_TEMP_RANGE (40_encoder.md R80); and a
value that none applies to is encoded, which leaves it on CMD (the model's choice: log 21, with the host's list of log 3). -/
def Obligations.FirstRefusalIsReported : Prop :=
  ∀ (s : State) (v : Cmd16) (rest : List HostOp), s.hostReady (.encode v) rest →
    (v.extractLsb' 6 2 ≠ 0 → step s = .refused .refCmdRsvd) ∧
    (v.extractLsb' 6 2 = 0 → 5 ≤ (v.extractLsb' 1 3).toNat → step s = .refused .refModeSel) ∧
    (v.extractLsb' 6 2 = 0 → (v.extractLsb' 1 3).toNat < 5 → s.tempPolicy = .refuse →
      ((v.extractLsb' 8 8).toNat < 16 ∨ 30 < (v.extractLsb' 8 8).toNat) → step s = .refused .refTempRange) ∧
    (v.extractLsb' 6 2 = 0 → (v.extractLsb' 1 3).toNat < 5 →
      (s.tempPolicy = .wrap ∨ (16 ≤ (v.extractLsb' 8 8).toNat ∧ (v.extractLsb' 8 8).toNat ≤ 30)) →
      step s = .next ((s.afterHostOp rest).driveCmd v))

/-- FRAME_OUT depends on CMD and TEMP_POLICY alone, whatever the modulator does; and what stands on CMD changes nothing that
any instruction but ENCODE does (derived by the spec as 40_encoder.md R81). -/
def Obligations.EncoderAndModulatorAreIndependent : Prop :=
  (∀ s s' : State, s.cmd = s'.cmd → s.tempPolicy = s'.tempPolicy → s.frameOut = s'.frameOut) ∧
  (∀ (i : Instr) (s t : State) (v : Cmd16), (∀ c, i ≠ .encode c) → exec i s = .next t →
    exec i (s.driveCmd v) = .next (t.driveCmd v))

/-- `fan_code` is the table of four codes (40_encoder.md R71), and `fn_sel` is the frame's function bit unchanged, 1 for POWER
and 0 for SETTING, so that bit 0 of an ENCODE result is CMD[0] (40_encoder.md R73). -/
def Obligations.FanCodesAndFunctionBit : Prop :=
  (fanCode .low = 0b00 ∧ fanCode .med = 0b01 ∧ fanCode .hi = 0b10 ∧ fanCode .auto = 0b11) ∧
  (functionBit .power = 1 ∧ functionBit .setting = 0) ∧ (∀ b : BitVec 1, functionBit (functionOfSel b) = b) ∧
  (∀ p v w, frameOf p v = .ok w → w.extractLsb' 0 1 = v.extractLsb' 0 1)

/-- `mode_code` is the table of five codes, the mode bits of an ENCODE result are the code of its mode, and so never 000, 011
or 111 (40_encoder.md R70). -/
def Obligations.EncodedModeBitsAreAssigned : Prop :=
  (modeCode .cool = 0b100 ∧ modeCode .heat = 0b010 ∧ modeCode .recycle = 0b110 ∧ modeCode .water = 0b001 ∧
    modeCode .fan = 0b101) ∧
  (∀ c : Command, (commandWord c).extractLsb' 1 3 = modeCode c.mode) ∧
  (∀ p v w, frameOf p v = .ok w → w.extractLsb' 1 3 = 0b100 ∨ w.extractLsb' 1 3 = 0b010 ∨ w.extractLsb' 1 3 = 0b110 ∨
    w.extractLsb' 1 3 = 0b001 ∨ w.extractLsb' 1 3 = 0b101)

/-- `temp_code(t) = (4·t − 60) mod 256` for every 8-bit `t`, and no wrap from 16 to 30 (40_encoder.md R74). -/
def Obligations.TemperatureCodeFormula : Prop :=
  ∀ t : BitVec 8, ((tempCode t).toNat : Int) = (4 * (t.toNat : Int) - 60) % 256 ∧
    (16 ≤ t.toNat → t.toNat ≤ 30 → (tempCode t).toNat = 4 * t.toNat - 60 ∧ 4 ≤ (tempCode t).toNat ∧ (tempCode t).toNat ≤ 60)

/-- `pack` puts each operand into its field and 0 into bits 8:6 and 31:17 (40_encoder.md R75, 30_encoding.md R53). -/
def Obligations.PackPlacesEveryField : Prop :=
  ∀ (f : BitVec 1) (m : BitVec 3) (a : BitVec 2) (c : BitVec 8),
    pack f m a c = (f.setWidth 32 ||| (m.setWidth 32 <<< 1) ||| (a.setWidth 32 <<< 4) ||| (c.setWidth 32 <<< 9)) ∧
    (pack f m a c).extractLsb' 0 1 = f ∧ (pack f m a c).extractLsb' 1 3 = m ∧ (pack f m a c).extractLsb' 4 2 = a ∧
    (pack f m a c).extractLsb' 6 3 = 0 ∧ (pack f m a c).extractLsb' 9 8 = c ∧ (pack f m a c).extractLsb' 17 15 = 0

/-- Every word ENCODE gives has its reserved bits 8:6 and 31:17 at 0 (30_encoding.md R54, R55). -/
def Obligations.EncodedReservedBitsAreZero : Prop :=
  ∀ p v w, frameOf p v = .ok w → w.extractLsb' 6 3 = 0 ∧ w.extractLsb' 17 15 = 0

/-- WATER forces the fan to LOW, no other mode changes it, normalising is idempotent, and the word's bits 5:4 are 00 whenever
its mode bits are WATER's code (40_encoder.md R72). -/
def Obligations.WaterForcesLowFan : Prop :=
  (∀ f, normaliseFan .water f = .low) ∧ (∀ m f, m ≠ .water → normaliseFan m f = f) ∧
  (∀ m f, normaliseFan m (normaliseFan m f) = normaliseFan m f) ∧
  (∀ p v w, frameOf p v = .ok w → w.extractLsb' 1 3 = 0b001 → w.extractLsb' 4 2 = 0b00)

/-- Two admitted commands that differ in one field differ only in that field's bits of the word (the rule the spec derives as
40_encoder.md R78, with bits 14:11 for the temperature, 30_encoding.md R58). -/
def Obligations.FieldIsolation : Prop :=
  ∀ (c : Command), c.admitted = true →
    (∀ t, ({ c with temp := t } : Command).admitted = true →
      commandWord { c with temp := t } &&& ~~~0x7800 = commandWord c &&& ~~~0x7800) ∧
    (∀ f, commandWord { c with function := f } &&& ~~~0x1 = commandWord c &&& ~~~0x1) ∧
    (∀ a, commandWord { c with fan := a } &&& ~~~0x30 = commandWord c &&& ~~~0x30) ∧
    (∀ a, c.mode = .water → commandWord { c with fan := a } = commandWord c) ∧
    (∀ m, commandWord { c with mode := m } &&& ~~~0x3E = commandWord c &&& ~~~0x3E) ∧
    (∀ m, (m ≠ .water ∧ c.mode ≠ .water ∨ c.fan = .low) →
      commandWord { c with mode := m } &&& ~~~0xE = commandWord c &&& ~~~0xE)

/-! ### The frame-field rows (their effect is the model's choice, log 13) -/

/-- FN_SETTING, FN_POWER, MODE_COOL, MODE_HEAT, MODE_RECYCLE, MODE_WATER, MODE_FAN, FAN_LOW, FAN_MED, FAN_HI, FAN_AUTO, TEMP,
RSVD_8_6 and RSVD_31_17 each complete in every state: the field has the row's value, the word matches the row, every bit
outside the field and every other piece of state stays (30_encoding.md R64; log 13). -/
def Obligations.FieldRowsPlaceTheirValue : Prop :=
  ∀ (i : Instr) (mask value : Word), FieldRow i mask value → ∀ s : State, ∃ x : Word,
    exec i s = .next { s with txFrame := x } ∧ x &&& mask = value ∧ x &&& ~~~mask = s.txFrame &&& ~~~mask ∧
    x &&& rowMask i = rowMatch i

/-- A frame word all of whose six fields have rows is rebuilt on TX_FRAME by running its rows, from any word before, and the
word of every command is such a word: the rows build what ENCODE gives (30_encoding.md R64, 40_encoder.md R75; log 13). -/
def Obligations.FrameRowsRebuildTheEncodedWord : Prop :=
  (∀ (w : Word) (s : State), (frameRows w).length = 6 → execAll (frameRows w) s = .next { s with txFrame := w }) ∧
  (∀ c : Command, (frameRows (commandWord c)).length = 6)

/-! ### TRANSMIT -/

/-- TRANSMIT of any word is accepted in one step while BUSY = 0: FR, BUSY, then the first phase, carrier on, T0 read after the
write; ports and parameters stay (41_modulator.md R97, R93; 30_encoding.md R66; boot premises R134, R135, log 10). That the
request is taken from TX_REQ at acceptance is the model's choice (log 5). -/
def Obligations.TransmitIsAcceptedWhenNotBusy : Prop :=
  ∀ (s : State) (w : Word), s.platform.ready → s.busy = false → ∃ t, exec (.transmit w) s = .next t ∧
    t.fr = some w ∧ t.busy = true ∧ t.seq = .run 0 ∧ t.carrier = true ∧ t.txReq = false ∧ t.txFrame = w ∧
    t.t0 = some t.timer ∧
    t.trace.map Event.kind = .timerRead t.timer :: .carrierWrite true :: .accept w :: s.trace.map Event.kind ∧
    t.cmd = s.cmd ∧ t.resetIn = s.resetIn ∧ t.tempPolicy = s.tempPolicy ∧ t.platform = s.platform ∧ t.host = s.host

/-- A TRANSMIT request while BUSY = 1 is held: the request stands and nothing else changes; the host has no step while it
stands; once the block is idle the next step accepts it (41_modulator.md R98). That TX_REQ is what stands and is cleared at
acceptance is the model's choice (log 5); the boot premises are log 10. -/
def Obligations.TransmitIsHeldWhileBusy : Prop :=
  (∀ (s : State) (w : Word), s.platform.ready → s.busy = true →
    exec (.transmit w) s = .next { s with txReq := true, txFrame := w }) ∧
  (∀ (s : State), s.txReq = true → s.fetch = s.fetchSequencer) ∧
  (∀ (s : State), s.resetLevel = false → s.platform.ready → s.txReq = true → s.busy = false → s.seq = .idle →
    ∃ t, step s = .next t ∧ t.fr = some s.txFrame ∧ t.busy = true ∧ t.seq = .run 0 ∧ t.txReq = false ∧ t.host = s.host)

/-- A TRANSMIT outside its boot premises is refused by name (93_implementation_defined.md I11; log 10). That an absent
peripheral is the reason named where the carrier is not configured either, and that both come before BUSY, is the model's
choice of order (log 28). -/
def Obligations.TransmitOutsideItsPremisesIsRefused : Prop :=
  ∀ (s : State) (w : Word),
    (s.platform.present = false → exec (.transmit w) s = .refused .peripheralUnavailable) ∧
    (s.platform.present = true → s.platform.carrierConfig = none →
      exec (.transmit w) s = .refused .carrierNotConfigured)

/-- The frame of TRANSMIT: while BUSY every state element stays; in both cases CMD, the RESET line, the parameters and the
host's list stay, and the trace only grows (41_modulator.md R83, R97, R98). -/
def Obligations.TransmitFrame : Prop :=
  ∀ (s t : State) (w : Word), exec (.transmit w) s = .next t →
    t.cmd = s.cmd ∧ t.resetIn = s.resetIn ∧ t.tempPolicy = s.tempPolicy ∧ t.platform = s.platform ∧ t.host = s.host ∧
    t.txFrame = w ∧ s.trace <:+ t.trace ∧
    (s.busy = true → t.seq = s.seq ∧ t.fr = s.fr ∧ t.t0 = s.t0 ∧ t.carrier = s.carrier ∧ t.busy = s.busy ∧
      t.clock = s.clock ∧ t.timeIn = s.timeIn ∧ t.draws = s.draws ∧ t.trace = s.trace)

/-- The first TRANSMIT request after reset is accepted at once, with no initialisation (70_reset_and_hazards.md R133). The
boot premises that State.reset meets are log 10. -/
def Obligations.FirstTransmitAfterResetIsAccepted : Prop :=
  ∀ (w : Word) (rest : List HostOp), ∃ t, step { State.reset with host := .transmit w :: rest } = .next t ∧
    t.fr = some w ∧ t.busy = true ∧ t.seq = .run 0 ∧ t.carrier = true ∧ t.host = rest

/-- A transmission takes nothing from what an earlier one left in FR, T0, SEQ and CARRIER (10_state.md R24). -/
def Obligations.TransmitIsSelfContained : Prop :=
  ∀ (s : State) (w : Word) (seq : Seq) (fr : Option Word) (t0 : Option Micros) (carrier : Bool), s.busy = false →
    exec (.transmit w) { s with seq := seq, fr := fr, t0 := t0, carrier := carrier } = exec (.transmit w) s

/-- SEND: ENCODE, then TRANSMIT FRAME_OUT, accepts the word ENCODE gave (30_encoding.md R68, 70_reset_and_hazards.md R137;
log 3, log 22). That CMD still carries the value after it is the model's choice (log 21). -/
def Obligations.SendTransmitsTheEncodedWord : Prop :=
  ∀ (s : State) (v : Cmd16) (w : Word) (rest : List HostOp), s.platform.ready → s.busy = false → s.txReq = false →
    s.resetIn = [] → s.host = HostOp.send v ++ rest → frameOf s.tempPolicy v = .ok w →
    ∃ t, core.run 2 s = .next t ∧ t.fr = some w ∧ t.seq = .run 0 ∧ t.busy = true ∧ t.cmd = v ∧ t.host = rest

/-! ### The phases of a transmission -/

/-- The symbol of 1 is SPACE 950, MARK 950 and the symbol of 0 is MARK 950, SPACE 950 (41_modulator.md R84, 30_encoding.md
R59, the call-site reading of 90_conflicts.md C4). -/
def Obligations.SymbolPolarity : Prop :=
  sym true = [⟨false, 950⟩, ⟨true, 950⟩] ∧ sym false = [⟨true, 950⟩, ⟨false, 950⟩]

/-- The phases of one repetition, 70 of them (41_modulator.md R86). -/
def Obligations.RepetitionHasSeventyPhases : Prop :=
  ∀ w : Word, framePhases w = [⟨true, 3050⟩, ⟨false, 2900⟩] ++ (List.range 32).flatMap (fun i => sym (w.getLsbD i)) ++
      sym true ++ sym false ∧ (framePhases w).length = 70

/-- The phases of a transmission, 211 of them, the phase of each index as the sequencer has it, and REP = k div 70 in `RUN(k)`
below 210, where it has a meaning (41_modulator.md R87, R88; 10_state.md R14). -/
def Obligations.TransmissionPhasesByIndex : Prop :=
  (∀ w : Word, txPhases w = framePhases w ++ framePhases w ++ framePhases w ++ [⟨true, 4000⟩] ∧
    (txPhases w).length = 211 ∧ ∀ k : Fin 211, (txPhases w)[k.val]? = some (phaseAt w k)) ∧
  (∀ (s : State) (k : Fin 211), s.seq = .run k →
    (k.val < 210 → ∃ r : Fin 3, s.readRep = .ok (some r) ∧ r.val = k.val / 70) ∧
    (k.val = 210 → s.readRep = .ok none))

/-- Data bits go out least significant first, FR[0] first and FR[31] last, in every repetition (20_memory.md R33). -/
def Obligations.DataBitsGoOutLeastSignificantFirst : Prop :=
  ∀ (w : Word) (r i : Nat), r < 3 → i < 32 →
    (txPhases w)[70 * r + 2 + 2 * i]? = some ⟨!w.getLsbD i, 950⟩ ∧
    (txPhases w)[70 * r + 3 + 2 * i]? = some ⟨w.getLsbD i, 950⟩

/-- Preamble and trailer of every repetition and the stop pulse, whatever the word (30_encoding.md R60, R62, R63;
41_modulator.md R89, R91, R92). -/
def Obligations.PreambleTrailerAndStopPhases : Prop :=
  ∀ (w : Word), (txPhases w)[210]? = some ⟨true, 4000⟩ ∧ ∀ r : Nat, r < 3 →
    (txPhases w)[70 * r]? = some ⟨true, 3050⟩ ∧ (txPhases w)[70 * r + 1]? = some ⟨false, 2900⟩ ∧
    (txPhases w)[70 * r + 66]? = some ⟨false, 950⟩ ∧ (txPhases w)[70 * r + 67]? = some ⟨true, 950⟩ ∧
    (txPhases w)[70 * r + 68]? = some ⟨true, 950⟩ ∧ (txPhases w)[70 * r + 69]? = some ⟨false, 950⟩

/-- The three repetitions are identical phase for phase (derived by the spec as 41_modulator.md R101). -/
def Obligations.RepetitionsAreIdentical : Prop :=
  ∀ (w : Word) (k : Nat), k < 140 → (txPhases w)[k]? = (txPhases w)[k + 70]?

/-- The nominal schedule (derived by the spec as 41_modulator.md R105; 70_reset_and_hazards.md R145). -/
def Obligations.NominalSchedule : Prop :=
  ∀ (w : Word), nominalStart w 210 = 211650 ∧ nominalStart w 211 = 215650 ∧ ∀ r : Nat, r < 3 →
    nominalStart w (70 * r) = 70550 * r ∧ nominalStart w (70 * r + 66) = 70550 * r + 66750 ∧
    nominalStart w (70 * r + 68) = 70550 * r + 68650 ∧
    ∀ i : Nat, i < 32 → nominalStart w (70 * r + 2 + 2 * i) = 70550 * r + 5950 + 1900 * i

/-- On the air a receiver sees intervals of 950, 1900, 2900, 3050, 3850 or 4000 microseconds only, levels alternate, and the
last interval is MARK 4000 (derived by the spec as 41_modulator.md R106). -/
def Obligations.AirIntervals : Prop :=
  ∀ (w : Word), (air (txPhases w)).getLast? = some ⟨true, 4000⟩ ∧
    (∀ p ∈ air (txPhases w), p.dur ∈ [950, 1900, 2900, 3050, 3850, 4000]) ∧
    List.IsChain (fun p q => p.level ≠ q.level) (air (txPhases w))

/-! ### The waveform elements -/

/-- PREAMBLE, SYM1, SYM0, TRAILER_1, TRAILER_0 and STOP, each in a phase of its own: a poll before the phase's duration has
elapsed is one timer read and changes nothing else (41_modulator.md R94); all but the data symbols do so without a value in
FR too, of which they read nothing (R100). -/
def Obligations.PollBeforeTheEndOnlyReadsTheTimer : Prop :=
  ∀ (s : State) (i : Instr) (k : Fin 211) (w : Word) (t0 : Micros) (p : Phase),
    s.seq = .run k → (s.fr = some w ∨ s.fr = none ∧ i ≠ .sym1 ∧ i ≠ .sym0) → s.t0 = some t0 → ElementPhase w i k.val →
    (txPhases w)[k.val]? = some p → (s.tick.timer - t0).toNat < p.dur →
    exec i s = .next { s with clock := s.clock + s.nextAdvance, timeIn := s.timeIn.tail, draws := s.draws + 1,
                              trace := ⟨s.clock + s.nextAdvance, .timerRead s.tick.timer⟩ :: s.trace }

/-- PREAMBLE, SYM1, SYM0, TRAILER_1, TRAILER_0, each in a phase of its own: the first poll at or past the phase's duration
begins the next phase in the same step, the carrier write before the start read; FR, BUSY, the ports, the parameters and the
host's list stay (41_modulator.md R93, R94, R95). -/
def Obligations.PollAtTheEndBeginsTheNextPhase : Prop :=
  ∀ (s : State) (i : Instr) (k : Fin 211) (w : Word) (t0 : Micros) (p q : Phase) (h : k.val + 1 < 211),
    s.seq = .run k → s.fr = some w → s.t0 = some t0 → ElementPhase w i k.val → (txPhases w)[k.val]? = some p →
    (txPhases w)[k.val + 1]? = some q → p.dur ≤ (s.tick.timer - t0).toNat →
    ∃ t, exec i s = .next t ∧ t.seq = .run ⟨k.val + 1, h⟩ ∧ t.carrier = q.level ∧ t.t0 = some t.timer ∧
      t.trace.map Event.kind =
        .timerRead t.timer :: .carrierWrite q.level :: .timerRead s.tick.timer :: s.trace.map Event.kind ∧
      t.fr = s.fr ∧ t.busy = s.busy ∧ t.cmd = s.cmd ∧ t.txReq = s.txReq ∧ t.txFrame = s.txFrame ∧
      t.resetIn = s.resetIn ∧ t.tempPolicy = s.tempPolicy ∧ t.platform = s.platform ∧ t.host = s.host

/-- STOP at the end of phase 210: carrier off, IDLE, BUSY = 0, TX_DONE, with no timed wait after the write, and FR keeps the
last word sent (41_modulator.md R96, 92_eei_decisions.md D14; log 20). -/
def Obligations.StopFinishesTheTransmission : Prop :=
  ∀ (s : State) (w : Word) (t0 : Micros), s.seq = .run 210 → s.fr = some w → s.t0 = some t0 →
    4000 ≤ (s.tick.timer - t0).toNat →
    ∃ t, exec .stop s = .next t ∧ t.seq = .idle ∧ t.busy = false ∧ t.carrier = false ∧ t.fr = some w ∧ t.txDone = true ∧
      t.trace.map Event.kind = .txDone :: .carrierWrite false :: .timerRead s.tick.timer :: s.trace.map Event.kind ∧
      t.t0 = s.t0 ∧ t.cmd = s.cmd ∧ t.txReq = s.txReq ∧ t.txFrame = s.txFrame ∧ t.resetIn = s.resetIn ∧
      t.tempPolicy = s.tempPolicy ∧ t.platform = s.platform ∧ t.host = s.host

/-- A waveform element in IDLE, or in a phase that is not its own, changes nothing: it is not selected there, and the host
cannot issue it (30_encoding.md R64; that it then completes with no effect is the model's choice, log 14). -/
def Obligations.ElementOutsideItsPhasesChangesNothing : Prop :=
  ∀ (s : State) (i : Instr), i ∈ [Instr.preamble, .sym1, .sym0, .trailer1, .trailer0, .stop] →
    (s.seq = .idle → exec i s = .next s) ∧
    (∀ k w, s.seq = .run k → s.fr = some w → ¬ ElementPhase w i k.val → exec i s = .next s)

/-- What stands on TX_FRAME changes nothing that a waveform element does: the word was latched (derived by the spec as
20_memory.md R43). -/
def Obligations.TxFrameCannotReachARunningTransmission : Prop :=
  ∀ (s t : State) (i : Instr) (x : Word), i ∈ [Instr.preamble, .sym1, .sym0, .trailer1, .trailer0, .stop] →
    exec i s = .next t → exec i { s with txFrame := x } = .next { t with txFrame := x }

/-! ### Invariants -/

/-- The state after reset meets every invariant below. -/
def Obligations.ResetMeetsTheInvariants : Prop :=
  State.reset.Inv ∧ State.reset.WaveOnTrace ∧ State.reset.InOrder ∧ State.reset.PhaseStarted ∧
    ∀ gap, State.reset.OnTime gap

/-- Every step keeps the block's invariant, from every state that meets it: BUSY exactly while not IDLE (derived by the spec
as 10_state.md R30), a running phase has FR, T0 and its level on the carrier, an idle block is dark. -/
def Obligations.StepKeepsTheBlockInvariant : Prop :=
  ∀ s t : State, s.Inv → step s = .next t → t.Inv

/-- Every step keeps the record of the running transmission: the carrier writes since its acceptance are the levels of its
phases so far, with two timer reads at least for each phase ended (41_modulator.md R93, R97, R103). That every phase writes
is 92_eei_decisions.md D13 (log 20). -/
def Obligations.StepKeepsTheWaveOnTheTrace : Prop :=
  ∀ s t : State, s.Inv → s.WaveOnTrace → step s = .next t → t.WaveOnTrace

/-- When a transmission ends (not by RESET), TX_DONE is signalled, the block is idle and dark, and the carrier writes since
its acceptance are exactly the levels of `txPhases(w)` followed by 0, 212 in all, with at least 422 timer reads (derived by
the spec as 41_modulator.md R103 and R110). The count of writes rests on 92_eei_decisions.md D13 (log 20). -/
def Obligations.EndedTransmissionEmittedEveryPhase : Prop :=
  ∀ (s t : State) (w : Word), s.Inv → s.WaveOnTrace → s.fr = some w → s.seq ≠ .idle → s.resetLevel = false →
    step s = .next t → t.seq = .idle →
    t.busy = false ∧ t.carrier = false ∧ t.txDone = true ∧ sinceAccept t.trace = some (w, txLevels w ++ [false]) ∧
    (txLevels w ++ [false]).length = 212 ∧ 422 ≤ readsSinceAccept t.trace

/-- With RESET released a running transmission goes on whatever the host does: FR is not written, and from `RUN(k)` the step
stays in `RUN(k)`, goes to `RUN(k + 1)`, or from `RUN(210)` finishes (41_modulator.md R99, R100, R108; 10_state.md R15). -/
def Obligations.RunningTransmissionKeepsFrAndGoesOn : Prop :=
  ∀ (s t : State) (k : Fin 211), s.Inv → s.seq = .run k → s.resetLevel = false → step s = .next t →
    t.fr = s.fr ∧
    (t.seq = .run k ∨ (∃ h : k.val + 1 < 211, t.seq = .run ⟨k.val + 1, h⟩) ∨ (k.val = 210 ∧ t.seq = .idle))

/-- No step faults from a state that meets the invariant, and an instruction faults in no other case than a read of FR or T0
while it holds no value (10_state.md R28, 60_exceptions.md R111). -/
def Obligations.NoStepFaults : Prop :=
  (∀ (s : State) (f : Fault), s.Inv → step s ≠ .fault f) ∧
  (∀ (s : State) (i : Instr) (f : Fault), exec i s = .fault f →
    (f = .frNoValue ∧ s.fr = none) ∨ (f = .t0NoValue ∧ s.t0 = none))

/-! ### Time -/

/-- Elapsed time is exact across a wrap of the 64-bit counter whenever it is below 2^64 (41_modulator.md R107). -/
def Obligations.ElapsedTimeIsExactAcrossAWrap : Prop :=
  (∀ c0 c : Nat, c0 ≤ c → c - c0 < 2 ^ 64 →
    (elapsed64 (BitVec.ofNat 64 c0) (BitVec.ofNat 64 c)).toNat = c - c0) ∧
  elapsed64 (BitVec.ofNat 64 (2 ^ 64 - 100)) 850 = 950

/-- TimerRead returns the clock modulo 2^64 and changes nothing of the block (20_memory.md R37); CarrierWrite sets CARRIER and
CARRIER_EN and is an event of the trace even where the level stays (20_memory.md R38). -/
def Obligations.TimerReadAndCarrierWriteEffects : Prop :=
  ∀ (s : State) (on : Bool),
    (s.timerRead.timer = BitVec.ofNat 64 (s.clock + s.nextAdvance) ∧ s.timerRead.seq = s.seq ∧ s.timerRead.fr = s.fr ∧
      s.timerRead.t0 = s.t0 ∧ s.timerRead.carrier = s.carrier ∧ s.timerRead.busy = s.busy) ∧
    ((s.carrierWrite on).carrier = on ∧ (s.carrierWrite on).carrierEn = on ∧ (s.carrierWrite on).seq = s.seq ∧
      (s.carrierWrite on).fr = s.fr ∧ (s.carrierWrite on).t0 = s.t0 ∧ (s.carrierWrite on).busy = s.busy ∧
      (s.carrierWrite on).trace = ⟨s.clock + s.nextAdvance, .carrierWrite on⟩ :: s.trace)

/-- The rules on the clock: every step keeps the events in its order, and whatever is listed or free, it passes every bound
and moves any number of times (60_exceptions.md R124, whose fairness is a rule of the model, log 6, 92_eei_decisions.md D19;
20_memory.md R40). -/
def Obligations.ClockIsMonotonicAndFair : Prop :=
  (∀ s t : State, s.InOrder → step s = .next t → t.InOrder) ∧
  (∀ s : State, s.FairTimer ∧ ∀ m, ∃ n, m ≤ s.moves n)

/-- Every step keeps what is known of the running phase's start: written, then read, both before now (41_modulator.md R93). -/
def Obligations.StepKeepsPhaseStarted : Prop :=
  ∀ s t : State, s.Inv → s.PhaseStarted → step s = .next t → t.PhaseStarted

/-- Each phase lasts at least its duration, from its carrier write to the next one, whatever the timer's draws are (derived by
the spec as 41_modulator.md R104). It rests on untorn timer reads, 92_eei_decisions.md D25 (log 20). -/
def Obligations.PhaseLastsAtLeastItsDuration : Prop :=
  ∀ (s t : State) (k : Fin 211), s.Inv → s.PhaseStarted → s.seq = .run k → s.resetLevel = false → step s = .next t →
    t.seq ≠ .run k →
    ∃ cw cw', lastWriteAt s.trace = some cw ∧ lastWriteAt t.trace = some cw' ∧ cw + durOf (phaseOf k) ≤ cw'

/-- Where no draw is longer than `gap`, a phase overruns its duration by at most three gaps (the OPEN POLL_OVERSHOOT of
92_eei_decisions.md D20 with `3 * gap`; 70_reset_and_hazards.md R138; log 7). -/
def Obligations.OvershootIsAtMostThreeGaps : Prop :=
  ∀ (s t : State) (gap : Nat), gap < 2 ^ 63 → s.Inv → s.OnTime gap → s.DrawsWithin gap 3 → step s = .next t →
    t.OnTime gap ∧
    (∀ k, s.seq = .run k → s.resetLevel = false → t.seq ≠ .run k →
      ∃ cw cw', lastWriteAt s.trace = some cw ∧ lastWriteAt t.trace = some cw' ∧
        cw' ≤ cw + durOf (phaseOf k) + 3 * gap)

/-- A TRANSMIT requested of an idle block ends, with the host idle after it and RESET released: the whole waveform has been
written and at least 215650 microseconds have passed. Fairness gives an `m` for which 217000 of the next `m` draws move the
clock (ClockIsMonotonicAndFair); where none of those `m` is 2^63 or longer (log 7), the end comes within `m` steps, and within
215651 if each of them moves the clock (41_modulator.md R83, R104, R110; 60_exceptions.md R116). It rests on 92_eei_decisions.md
D13, D14, D19 and D25 (log 20). -/
def Obligations.TransmissionRunsToCompletion : Prop :=
  ∀ (s : State) (w : Word) (rest : List HostOp) (m : Nat), s.platform.ready → s.busy = false → s.seq = .idle →
    s.txReq = false → (∀ b ∈ s.resetIn, b = false) → s.host = .transmit w :: rest → (∀ op ∈ rest, op = .idle) →
    s.DrawsWithin (2 ^ 63 - 1) m → 217000 ≤ s.moves m →
    ∃ n t, n ≤ m ∧ ((∀ i < m, s.drawAt i ≠ 0) → n ≤ 215651) ∧ core.run n s = .next t ∧ t.seq = .idle ∧ t.busy = false ∧
      t.carrier = false ∧ t.fr = some w ∧ t.txDone = true ∧ sinceAccept t.trace = some (w, txLevels w ++ [false]) ∧
      s.clock + 215650 ≤ t.clock

/-! ### RESET -/

/-- RESET in any state, before every other event and in one step: IDLE, BUSY = 0, CARRIER = 0, and FR, T0, REP without a value
(70_reset_and_hazards.md R131). That CMD, TX_FRAME, the parameters, the platform and the host's list stay is the model's
choice (log 25), and so are TX_REQ dropped in every state and the list of RESET's levels (log 4). -/
def Obligations.ResetTakesEffectInAnyState : Prop :=
  ∀ s : State, s.resetLevel = true → ∃ t, step s = .next t ∧ t.seq = .idle ∧ t.busy = false ∧ t.carrier = false ∧
    t.carrierEn = false ∧ t.fr = none ∧ t.t0 = none ∧ t.readRep = .error .repNoValue ∧ t.txReq = false ∧
    t.cmd = s.cmd ∧ t.txFrame = s.txFrame ∧ t.tempPolicy = s.tempPolicy ∧ t.platform = s.platform ∧ t.host = s.host ∧
    t.resetIn = s.resetIn.tail

/-- RESET during a transmission aborts it: carrier off at once, no TX_DONE, a held request dropped, and the levels written
before it are a prefix of those of `txPhases(FR)` (70_reset_and_hazards.md R132). That RESET is itself an event of the trace
is the model's choice (log 8). -/
def Obligations.ResetAbortsATransmission : Prop :=
  ∀ (s : State) (w : Word), s.Inv → s.WaveOnTrace → s.busy = true → s.fr = some w → s.resetLevel = true →
    ∃ t, step s = .next t ∧ t.carrier = false ∧ t.seq = .idle ∧ t.txReq = false ∧ t.txDone = false ∧
      t.trace.map Event.kind = .reset :: s.trace.map Event.kind ∧
      ∃ levels, sinceAccept s.trace = some (w, levels) ∧ levels <+: txLevels w

/-- What reset leaves: SEQ = IDLE, CARRIER = 0, BUSY = 0, and FR, T0 and REP hold no value, so that reading one faults
(10_state.md R25, R26, R27, R28; 92_eei_decisions.md D17, log 20). -/
def Obligations.ResetValues : Prop :=
  State.reset.seq = .idle ∧ State.reset.carrier = false ∧ State.reset.carrierEn = false ∧ State.reset.busy = false ∧
  State.reset.fr = none ∧ State.reset.t0 = none ∧ State.reset.readFR = .error .frNoValue ∧
  State.reset.readT0 = .error .t0NoValue ∧ State.reset.readRep = .error .repNoValue

/-! ### The step -/

/-- With RESET released, a step runs the instruction that the fetched bits decode to, and nothing else: the fetch has already
taken the level of RESET and the host's operation (60_exceptions.md R119). -/
def Obligations.StepRunsTheDecodedInstruction : Prop :=
  ∀ (s t : State) (slot : Slot) (bits : Word) (i : Instr), s.resetLevel = false →
    s.nextResetIn.fetch = .word slot bits t → decode slot bits = .ok i → step s = exec i t

/-- The host's operations at its step, each taken from the list (log 3): ENCODE, TRANSMIT and `TRANSMIT FRAME_OUT` (log 22) run
as their instructions, the last with FRAME_OUT's refusal before any other (the model's order, log 28); any value of a field,
by its row where it has one (log 13, log 26), and any whole word is driven on TX_FRAME; `configure_carrier` sets the platform (log 10, log 29) and a foreign `set_carrier` nothing (log 11) while BUSY = 0.
At an idle entry the sequencer has the step: StepRunsTheElementOfThePhase and, in IDLE, the last clause here (10_state.md R9,
R10; 20_memory.md R43; 30_encoding.md R64, R66, R68; 70_reset_and_hazards.md R142). -/
def Obligations.StepTakesTheHostOperation : Prop :=
  ∀ (s : State) (rest : List HostOp),
    (∀ v c, s.hostReady (.encode v) rest → decodeCmd v = .ok c → step s = exec (.encode c) (s.afterHostOp rest)) ∧
    (∀ w, s.hostReady (.transmit w) rest → step s = exec (.transmit w) (s.afterHostOp rest)) ∧
    (∀ w, s.hostReady .transmitFrameOut rest → s.frameOut = .ok w → step s = exec (.transmit w) (s.afterHostOp rest)) ∧
    (∀ r, s.hostReady .transmitFrameOut rest → s.frameOut = .error r → step s = .refused r) ∧
    (∀ f w i, s.hostReady (.setField f w) rest → decode (.field f) w = .ok i → step s = exec i (s.afterHostOp rest)) ∧
    (∀ f w, s.hostReady (.setField f w) rest →
      step s = .next ((s.afterHostOp rest).placeField (fieldMask f) (w &&& fieldMask f))) ∧
    (∀ w, s.hostReady (.driveTxFrame w) rest → step s = .next ((s.afterHostOp rest).driveTxFrame w)) ∧
    (∀ c, s.hostReady (.configureCarrier c) rest → s.busy = false →
      step s = .next { s.afterHostOp rest with platform := { s.platform with carrierConfig := some c } }) ∧
    (∀ on, s.hostReady (.foreignSetCarrier on) rest → s.busy = false → step s = .next (s.afterHostOp rest)) ∧
    (s.hostReady .idle rest → s.seq = .idle → step s = .next (s.afterHostOp rest))

/-- In a running phase a step runs the element that owns the phase where the host has no step, no operation left, or does
nothing at this step, its idle entry then being taken (30_encoding.md R64, 41_modulator.md R89 to R92, R94; log 3). -/
def Obligations.StepRunsTheElementOfThePhase : Prop :=
  ∀ (s : State) (k : Fin 211) (w : Word) (i : Instr), s.resetLevel = false → s.seq = .run k → s.fr = some w →
    ElementPhase w i k.val →
    (s.txReq = true ∨ s.host = [] → step s = exec i s.nextResetIn) ∧
    (∀ rest, s.txReq = false → s.host = .idle :: rest → step s = exec i (s.afterHostOp rest))

/-- Another agent at the carrier's PWM while BUSY is refused by name (93_implementation_defined.md I12; 70_reset_and_hazards.md
R140; log 11). -/
def Obligations.ForeignAgentWhileBusyIsRefused : Prop :=
  ∀ (s : State) (rest : List HostOp) (on : Bool) (c : CarrierConfig), s.busy = true →
    (s.hostReady (.foreignSetCarrier on) rest → step s = .refused .carrierOwned) ∧
    (s.hostReady (.configureCarrier c) rest → step s = .refused .carrierOwned)

/-- An idle block with no request waits where the host has no operation left or does nothing at this step, its idle entry then
being taken (20_memory.md R39, 60_exceptions.md R129; log 3, log 18). -/
def Obligations.IdleBlockWaits : Prop :=
  ∀ s : State, s.resetLevel = false → s.seq = .idle → s.txReq = false →
    (s.host = [] → step s = .next s.nextResetIn) ∧
    (∀ rest, s.host = .idle :: rest → step s = .next (s.afterHostOp rest))
end

