-- ==== Sys2Proof/Laws/State.lean ====
section
/-! SUPPORT. What each named update of the state does to each field, one lemma a field, so that no later proof unfolds a
record update. The clock, T0 and trace after `accept` are in Laws/Ops.lean. -/

namespace Sys2Proof.Machine

/-! `tick` -/
@[simp] theorem State.tick_seq (s : State) : s.tick.seq = s.seq := rfl
@[simp] theorem State.tick_fr (s : State) : s.tick.fr = s.fr := rfl
@[simp] theorem State.tick_t0 (s : State) : s.tick.t0 = s.t0 := rfl
@[simp] theorem State.tick_carrier (s : State) : s.tick.carrier = s.carrier := rfl
@[simp] theorem State.tick_busy (s : State) : s.tick.busy = s.busy := rfl
@[simp] theorem State.tick_cmd (s : State) : s.tick.cmd = s.cmd := rfl
@[simp] theorem State.tick_txReq (s : State) : s.tick.txReq = s.txReq := rfl
@[simp] theorem State.tick_txFrame (s : State) : s.tick.txFrame = s.txFrame := rfl
@[simp] theorem State.tick_resetIn (s : State) : s.tick.resetIn = s.resetIn := rfl
@[simp] theorem State.tick_tempPolicy (s : State) : s.tick.tempPolicy = s.tempPolicy := rfl
@[simp] theorem State.tick_platform (s : State) : s.tick.platform = s.platform := rfl
@[simp] theorem State.tick_host (s : State) : s.tick.host = s.host := rfl
@[simp] theorem State.tick_clock (s : State) : s.tick.clock = s.clock + s.nextAdvance := rfl
@[simp] theorem State.tick_timeIn (s : State) : s.tick.timeIn = s.timeIn.tail := rfl
@[simp] theorem State.tick_draws (s : State) : s.tick.draws = s.draws + 1 := rfl
@[simp] theorem State.tick_trace (s : State) : s.tick.trace = s.trace := rfl

/-! `record` -/
@[simp] theorem State.record_seq (s : State) (e : EventKind) : (s.record e).seq = s.seq := rfl
@[simp] theorem State.record_fr (s : State) (e : EventKind) : (s.record e).fr = s.fr := rfl
@[simp] theorem State.record_t0 (s : State) (e : EventKind) : (s.record e).t0 = s.t0 := rfl
@[simp] theorem State.record_carrier (s : State) (e : EventKind) : (s.record e).carrier = s.carrier := rfl
@[simp] theorem State.record_busy (s : State) (e : EventKind) : (s.record e).busy = s.busy := rfl
@[simp] theorem State.record_cmd (s : State) (e : EventKind) : (s.record e).cmd = s.cmd := rfl
@[simp] theorem State.record_txReq (s : State) (e : EventKind) : (s.record e).txReq = s.txReq := rfl
@[simp] theorem State.record_txFrame (s : State) (e : EventKind) : (s.record e).txFrame = s.txFrame := rfl
@[simp] theorem State.record_resetIn (s : State) (e : EventKind) : (s.record e).resetIn = s.resetIn := rfl
@[simp] theorem State.record_tempPolicy (s : State) (e : EventKind) : (s.record e).tempPolicy = s.tempPolicy := rfl
@[simp] theorem State.record_platform (s : State) (e : EventKind) : (s.record e).platform = s.platform := rfl
@[simp] theorem State.record_host (s : State) (e : EventKind) : (s.record e).host = s.host := rfl
@[simp] theorem State.record_clock (s : State) (e : EventKind) : (s.record e).clock = s.clock := rfl
@[simp] theorem State.record_timeIn (s : State) (e : EventKind) : (s.record e).timeIn = s.timeIn := rfl
@[simp] theorem State.record_draws (s : State) (e : EventKind) : (s.record e).draws = s.draws := rfl
@[simp] theorem State.record_trace (s : State) (e : EventKind) : (s.record e).trace = ⟨s.clock, e⟩ :: s.trace := rfl

/-! `setBusy` -/
@[simp] theorem State.setBusy_seq (s : State) : s.setBusy.seq = s.seq := rfl
@[simp] theorem State.setBusy_fr (s : State) : s.setBusy.fr = s.fr := rfl
@[simp] theorem State.setBusy_t0 (s : State) : s.setBusy.t0 = s.t0 := rfl
@[simp] theorem State.setBusy_carrier (s : State) : s.setBusy.carrier = s.carrier := rfl
@[simp] theorem State.setBusy_busy (s : State) : s.setBusy.busy = true := rfl
@[simp] theorem State.setBusy_cmd (s : State) : s.setBusy.cmd = s.cmd := rfl
@[simp] theorem State.setBusy_txReq (s : State) : s.setBusy.txReq = s.txReq := rfl
@[simp] theorem State.setBusy_txFrame (s : State) : s.setBusy.txFrame = s.txFrame := rfl
@[simp] theorem State.setBusy_resetIn (s : State) : s.setBusy.resetIn = s.resetIn := rfl
@[simp] theorem State.setBusy_tempPolicy (s : State) : s.setBusy.tempPolicy = s.tempPolicy := rfl
@[simp] theorem State.setBusy_platform (s : State) : s.setBusy.platform = s.platform := rfl
@[simp] theorem State.setBusy_host (s : State) : s.setBusy.host = s.host := rfl
@[simp] theorem State.setBusy_clock (s : State) : s.setBusy.clock = s.clock := rfl
@[simp] theorem State.setBusy_timeIn (s : State) : s.setBusy.timeIn = s.timeIn := rfl
@[simp] theorem State.setBusy_draws (s : State) : s.setBusy.draws = s.draws := rfl
@[simp] theorem State.setBusy_trace (s : State) : s.setBusy.trace = s.trace := rfl

/-! `clearBusy` -/
@[simp] theorem State.clearBusy_seq (s : State) : s.clearBusy.seq = s.seq := rfl
@[simp] theorem State.clearBusy_fr (s : State) : s.clearBusy.fr = s.fr := rfl
@[simp] theorem State.clearBusy_t0 (s : State) : s.clearBusy.t0 = s.t0 := rfl
@[simp] theorem State.clearBusy_carrier (s : State) : s.clearBusy.carrier = s.carrier := rfl
@[simp] theorem State.clearBusy_busy (s : State) : s.clearBusy.busy = false := rfl
@[simp] theorem State.clearBusy_cmd (s : State) : s.clearBusy.cmd = s.cmd := rfl
@[simp] theorem State.clearBusy_txReq (s : State) : s.clearBusy.txReq = s.txReq := rfl
@[simp] theorem State.clearBusy_txFrame (s : State) : s.clearBusy.txFrame = s.txFrame := rfl
@[simp] theorem State.clearBusy_resetIn (s : State) : s.clearBusy.resetIn = s.resetIn := rfl
@[simp] theorem State.clearBusy_tempPolicy (s : State) : s.clearBusy.tempPolicy = s.tempPolicy := rfl
@[simp] theorem State.clearBusy_platform (s : State) : s.clearBusy.platform = s.platform := rfl
@[simp] theorem State.clearBusy_host (s : State) : s.clearBusy.host = s.host := rfl
@[simp] theorem State.clearBusy_clock (s : State) : s.clearBusy.clock = s.clock := rfl
@[simp] theorem State.clearBusy_timeIn (s : State) : s.clearBusy.timeIn = s.timeIn := rfl
@[simp] theorem State.clearBusy_draws (s : State) : s.clearBusy.draws = s.draws := rfl
@[simp] theorem State.clearBusy_trace (s : State) : s.clearBusy.trace = s.trace := rfl

/-! `carrierWrite` -/
@[simp] theorem State.carrierWrite_seq (s : State) (on : Bool) : (s.carrierWrite on).seq = s.seq := rfl
@[simp] theorem State.carrierWrite_fr (s : State) (on : Bool) : (s.carrierWrite on).fr = s.fr := rfl
@[simp] theorem State.carrierWrite_t0 (s : State) (on : Bool) : (s.carrierWrite on).t0 = s.t0 := rfl
@[simp] theorem State.carrierWrite_carrier (s : State) (on : Bool) : (s.carrierWrite on).carrier = on := rfl
@[simp] theorem State.carrierWrite_busy (s : State) (on : Bool) : (s.carrierWrite on).busy = s.busy := rfl
@[simp] theorem State.carrierWrite_cmd (s : State) (on : Bool) : (s.carrierWrite on).cmd = s.cmd := rfl
@[simp] theorem State.carrierWrite_txReq (s : State) (on : Bool) : (s.carrierWrite on).txReq = s.txReq := rfl
@[simp] theorem State.carrierWrite_txFrame (s : State) (on : Bool) : (s.carrierWrite on).txFrame = s.txFrame := rfl
@[simp] theorem State.carrierWrite_resetIn (s : State) (on : Bool) : (s.carrierWrite on).resetIn = s.resetIn := rfl
@[simp] theorem State.carrierWrite_tempPolicy (s : State) (on : Bool) : (s.carrierWrite on).tempPolicy = s.tempPolicy := rfl
@[simp] theorem State.carrierWrite_platform (s : State) (on : Bool) : (s.carrierWrite on).platform = s.platform := rfl
@[simp] theorem State.carrierWrite_host (s : State) (on : Bool) : (s.carrierWrite on).host = s.host := rfl
@[simp] theorem State.carrierWrite_clock (s : State) (on : Bool) : (s.carrierWrite on).clock = s.tick.clock := rfl
@[simp] theorem State.carrierWrite_timeIn (s : State) (on : Bool) : (s.carrierWrite on).timeIn = s.timeIn.tail := rfl
@[simp] theorem State.carrierWrite_draws (s : State) (on : Bool) : (s.carrierWrite on).draws = s.draws + 1 := rfl
@[simp] theorem State.carrierWrite_trace (s : State) (on : Bool) : (s.carrierWrite on).trace = ⟨s.tick.clock, .carrierWrite on⟩ :: s.trace := rfl

/-! `timerRead` -/
@[simp] theorem State.timerRead_seq (s : State) : s.timerRead.seq = s.seq := rfl
@[simp] theorem State.timerRead_fr (s : State) : s.timerRead.fr = s.fr := rfl
@[simp] theorem State.timerRead_t0 (s : State) : s.timerRead.t0 = s.t0 := rfl
@[simp] theorem State.timerRead_carrier (s : State) : s.timerRead.carrier = s.carrier := rfl
@[simp] theorem State.timerRead_busy (s : State) : s.timerRead.busy = s.busy := rfl
@[simp] theorem State.timerRead_cmd (s : State) : s.timerRead.cmd = s.cmd := rfl
@[simp] theorem State.timerRead_txReq (s : State) : s.timerRead.txReq = s.txReq := rfl
@[simp] theorem State.timerRead_txFrame (s : State) : s.timerRead.txFrame = s.txFrame := rfl
@[simp] theorem State.timerRead_resetIn (s : State) : s.timerRead.resetIn = s.resetIn := rfl
@[simp] theorem State.timerRead_tempPolicy (s : State) : s.timerRead.tempPolicy = s.tempPolicy := rfl
@[simp] theorem State.timerRead_platform (s : State) : s.timerRead.platform = s.platform := rfl
@[simp] theorem State.timerRead_host (s : State) : s.timerRead.host = s.host := rfl
@[simp] theorem State.timerRead_clock (s : State) : s.timerRead.clock = s.tick.clock := rfl
@[simp] theorem State.timerRead_timeIn (s : State) : s.timerRead.timeIn = s.timeIn.tail := rfl
@[simp] theorem State.timerRead_draws (s : State) : s.timerRead.draws = s.draws + 1 := rfl
@[simp] theorem State.timerRead_trace (s : State) : s.timerRead.trace = ⟨s.tick.clock, .timerRead s.tick.timer⟩ :: s.trace := rfl

/-! `beginPhase` -/
@[simp] theorem State.beginPhase_seq (s : State) (w : Word) (k : Fin 211) : (s.beginPhase w k).seq = .run k := rfl
@[simp] theorem State.beginPhase_fr (s : State) (w : Word) (k : Fin 211) : (s.beginPhase w k).fr = s.fr := rfl
@[simp] theorem State.beginPhase_t0 (s : State) (w : Word) (k : Fin 211) : (s.beginPhase w k).t0 = some (s.carrierWrite (levelOf w (phaseOf k))).timerRead.timer := rfl
@[simp] theorem State.beginPhase_carrier (s : State) (w : Word) (k : Fin 211) : (s.beginPhase w k).carrier = levelOf w (phaseOf k) := rfl
@[simp] theorem State.beginPhase_busy (s : State) (w : Word) (k : Fin 211) : (s.beginPhase w k).busy = s.busy := rfl
@[simp] theorem State.beginPhase_cmd (s : State) (w : Word) (k : Fin 211) : (s.beginPhase w k).cmd = s.cmd := rfl
@[simp] theorem State.beginPhase_txReq (s : State) (w : Word) (k : Fin 211) : (s.beginPhase w k).txReq = s.txReq := rfl
@[simp] theorem State.beginPhase_txFrame (s : State) (w : Word) (k : Fin 211) : (s.beginPhase w k).txFrame = s.txFrame := rfl
@[simp] theorem State.beginPhase_resetIn (s : State) (w : Word) (k : Fin 211) : (s.beginPhase w k).resetIn = s.resetIn := rfl
@[simp] theorem State.beginPhase_tempPolicy (s : State) (w : Word) (k : Fin 211) : (s.beginPhase w k).tempPolicy = s.tempPolicy := rfl
@[simp] theorem State.beginPhase_platform (s : State) (w : Word) (k : Fin 211) : (s.beginPhase w k).platform = s.platform := rfl
@[simp] theorem State.beginPhase_host (s : State) (w : Word) (k : Fin 211) : (s.beginPhase w k).host = s.host := rfl
@[simp] theorem State.beginPhase_clock (s : State) (w : Word) (k : Fin 211) : (s.beginPhase w k).clock = (s.carrierWrite (levelOf w (phaseOf k))).timerRead.clock := rfl
@[simp] theorem State.beginPhase_timeIn (s : State) (w : Word) (k : Fin 211) : (s.beginPhase w k).timeIn = s.timeIn.tail.tail := rfl
@[simp] theorem State.beginPhase_draws (s : State) (w : Word) (k : Fin 211) : (s.beginPhase w k).draws = s.draws + 1 + 1 := rfl
@[simp] theorem State.beginPhase_trace (s : State) (w : Word) (k : Fin 211) : (s.beginPhase w k).trace = (s.carrierWrite (levelOf w (phaseOf k))).timerRead.trace := rfl

/-! `finish` -/
@[simp] theorem State.finish_seq (s : State) : s.finish.seq = .idle := rfl
@[simp] theorem State.finish_fr (s : State) : s.finish.fr = s.fr := rfl
@[simp] theorem State.finish_t0 (s : State) : s.finish.t0 = s.t0 := rfl
@[simp] theorem State.finish_carrier (s : State) : s.finish.carrier = false := rfl
@[simp] theorem State.finish_busy (s : State) : s.finish.busy = false := rfl
@[simp] theorem State.finish_cmd (s : State) : s.finish.cmd = s.cmd := rfl
@[simp] theorem State.finish_txReq (s : State) : s.finish.txReq = s.txReq := rfl
@[simp] theorem State.finish_txFrame (s : State) : s.finish.txFrame = s.txFrame := rfl
@[simp] theorem State.finish_resetIn (s : State) : s.finish.resetIn = s.resetIn := rfl
@[simp] theorem State.finish_tempPolicy (s : State) : s.finish.tempPolicy = s.tempPolicy := rfl
@[simp] theorem State.finish_platform (s : State) : s.finish.platform = s.platform := rfl
@[simp] theorem State.finish_host (s : State) : s.finish.host = s.host := rfl
@[simp] theorem State.finish_clock (s : State) : s.finish.clock = (s.carrierWrite false).tick.clock := rfl
@[simp] theorem State.finish_timeIn (s : State) : s.finish.timeIn = s.timeIn.tail.tail := rfl
@[simp] theorem State.finish_draws (s : State) : s.finish.draws = s.draws + 1 + 1 := rfl
@[simp] theorem State.finish_trace (s : State) : s.finish.trace = ⟨(s.carrierWrite false).tick.clock, .txDone⟩ :: (s.carrierWrite false).trace := rfl

/-! `hold` -/
@[simp] theorem State.hold_seq (s : State) (w : Word) : (s.hold w).seq = s.seq := rfl
@[simp] theorem State.hold_fr (s : State) (w : Word) : (s.hold w).fr = s.fr := rfl
@[simp] theorem State.hold_t0 (s : State) (w : Word) : (s.hold w).t0 = s.t0 := rfl
@[simp] theorem State.hold_carrier (s : State) (w : Word) : (s.hold w).carrier = s.carrier := rfl
@[simp] theorem State.hold_busy (s : State) (w : Word) : (s.hold w).busy = s.busy := rfl
@[simp] theorem State.hold_cmd (s : State) (w : Word) : (s.hold w).cmd = s.cmd := rfl
@[simp] theorem State.hold_txReq (s : State) (w : Word) : (s.hold w).txReq = true := rfl
@[simp] theorem State.hold_txFrame (s : State) (w : Word) : (s.hold w).txFrame = w := rfl
@[simp] theorem State.hold_resetIn (s : State) (w : Word) : (s.hold w).resetIn = s.resetIn := rfl
@[simp] theorem State.hold_tempPolicy (s : State) (w : Word) : (s.hold w).tempPolicy = s.tempPolicy := rfl
@[simp] theorem State.hold_platform (s : State) (w : Word) : (s.hold w).platform = s.platform := rfl
@[simp] theorem State.hold_host (s : State) (w : Word) : (s.hold w).host = s.host := rfl
@[simp] theorem State.hold_clock (s : State) (w : Word) : (s.hold w).clock = s.clock := rfl
@[simp] theorem State.hold_timeIn (s : State) (w : Word) : (s.hold w).timeIn = s.timeIn := rfl
@[simp] theorem State.hold_draws (s : State) (w : Word) : (s.hold w).draws = s.draws := rfl
@[simp] theorem State.hold_trace (s : State) (w : Word) : (s.hold w).trace = s.trace := rfl

/-! `applyReset` -/
@[simp] theorem State.applyReset_seq (s : State) : s.applyReset.seq = .idle := rfl
@[simp] theorem State.applyReset_fr (s : State) : s.applyReset.fr = none := rfl
@[simp] theorem State.applyReset_t0 (s : State) : s.applyReset.t0 = none := rfl
@[simp] theorem State.applyReset_carrier (s : State) : s.applyReset.carrier = false := rfl
@[simp] theorem State.applyReset_busy (s : State) : s.applyReset.busy = false := rfl
@[simp] theorem State.applyReset_cmd (s : State) : s.applyReset.cmd = s.cmd := rfl
@[simp] theorem State.applyReset_txReq (s : State) : s.applyReset.txReq = false := rfl
@[simp] theorem State.applyReset_txFrame (s : State) : s.applyReset.txFrame = s.txFrame := rfl
@[simp] theorem State.applyReset_resetIn (s : State) : s.applyReset.resetIn = s.resetIn := rfl
@[simp] theorem State.applyReset_tempPolicy (s : State) : s.applyReset.tempPolicy = s.tempPolicy := rfl
@[simp] theorem State.applyReset_platform (s : State) : s.applyReset.platform = s.platform := rfl
@[simp] theorem State.applyReset_host (s : State) : s.applyReset.host = s.host := rfl
@[simp] theorem State.applyReset_clock (s : State) : s.applyReset.clock = s.tick.clock := rfl
@[simp] theorem State.applyReset_timeIn (s : State) : s.applyReset.timeIn = s.timeIn.tail := rfl
@[simp] theorem State.applyReset_draws (s : State) : s.applyReset.draws = s.draws + 1 := rfl
@[simp] theorem State.applyReset_trace (s : State) : s.applyReset.trace = ⟨s.tick.clock, .reset⟩ :: s.trace := rfl

/-! `driveCmd` -/
@[simp] theorem State.driveCmd_seq (s : State) (c : Cmd16) : (s.driveCmd c).seq = s.seq := rfl
@[simp] theorem State.driveCmd_fr (s : State) (c : Cmd16) : (s.driveCmd c).fr = s.fr := rfl
@[simp] theorem State.driveCmd_t0 (s : State) (c : Cmd16) : (s.driveCmd c).t0 = s.t0 := rfl
@[simp] theorem State.driveCmd_carrier (s : State) (c : Cmd16) : (s.driveCmd c).carrier = s.carrier := rfl
@[simp] theorem State.driveCmd_busy (s : State) (c : Cmd16) : (s.driveCmd c).busy = s.busy := rfl
@[simp] theorem State.driveCmd_cmd (s : State) (c : Cmd16) : (s.driveCmd c).cmd = c := rfl
@[simp] theorem State.driveCmd_txReq (s : State) (c : Cmd16) : (s.driveCmd c).txReq = s.txReq := rfl
@[simp] theorem State.driveCmd_txFrame (s : State) (c : Cmd16) : (s.driveCmd c).txFrame = s.txFrame := rfl
@[simp] theorem State.driveCmd_resetIn (s : State) (c : Cmd16) : (s.driveCmd c).resetIn = s.resetIn := rfl
@[simp] theorem State.driveCmd_tempPolicy (s : State) (c : Cmd16) : (s.driveCmd c).tempPolicy = s.tempPolicy := rfl
@[simp] theorem State.driveCmd_platform (s : State) (c : Cmd16) : (s.driveCmd c).platform = s.platform := rfl
@[simp] theorem State.driveCmd_host (s : State) (c : Cmd16) : (s.driveCmd c).host = s.host := rfl
@[simp] theorem State.driveCmd_clock (s : State) (c : Cmd16) : (s.driveCmd c).clock = s.clock := rfl
@[simp] theorem State.driveCmd_timeIn (s : State) (c : Cmd16) : (s.driveCmd c).timeIn = s.timeIn := rfl
@[simp] theorem State.driveCmd_draws (s : State) (c : Cmd16) : (s.driveCmd c).draws = s.draws := rfl
@[simp] theorem State.driveCmd_trace (s : State) (c : Cmd16) : (s.driveCmd c).trace = s.trace := rfl

/-! `driveTxFrame` -/
@[simp] theorem State.driveTxFrame_seq (s : State) (w : Word) : (s.driveTxFrame w).seq = s.seq := rfl
@[simp] theorem State.driveTxFrame_fr (s : State) (w : Word) : (s.driveTxFrame w).fr = s.fr := rfl
@[simp] theorem State.driveTxFrame_t0 (s : State) (w : Word) : (s.driveTxFrame w).t0 = s.t0 := rfl
@[simp] theorem State.driveTxFrame_carrier (s : State) (w : Word) : (s.driveTxFrame w).carrier = s.carrier := rfl
@[simp] theorem State.driveTxFrame_busy (s : State) (w : Word) : (s.driveTxFrame w).busy = s.busy := rfl
@[simp] theorem State.driveTxFrame_cmd (s : State) (w : Word) : (s.driveTxFrame w).cmd = s.cmd := rfl
@[simp] theorem State.driveTxFrame_txReq (s : State) (w : Word) : (s.driveTxFrame w).txReq = s.txReq := rfl
@[simp] theorem State.driveTxFrame_txFrame (s : State) (w : Word) : (s.driveTxFrame w).txFrame = w := rfl
@[simp] theorem State.driveTxFrame_resetIn (s : State) (w : Word) : (s.driveTxFrame w).resetIn = s.resetIn := rfl
@[simp] theorem State.driveTxFrame_tempPolicy (s : State) (w : Word) : (s.driveTxFrame w).tempPolicy = s.tempPolicy := rfl
@[simp] theorem State.driveTxFrame_platform (s : State) (w : Word) : (s.driveTxFrame w).platform = s.platform := rfl
@[simp] theorem State.driveTxFrame_host (s : State) (w : Word) : (s.driveTxFrame w).host = s.host := rfl
@[simp] theorem State.driveTxFrame_clock (s : State) (w : Word) : (s.driveTxFrame w).clock = s.clock := rfl
@[simp] theorem State.driveTxFrame_timeIn (s : State) (w : Word) : (s.driveTxFrame w).timeIn = s.timeIn := rfl
@[simp] theorem State.driveTxFrame_draws (s : State) (w : Word) : (s.driveTxFrame w).draws = s.draws := rfl
@[simp] theorem State.driveTxFrame_trace (s : State) (w : Word) : (s.driveTxFrame w).trace = s.trace := rfl

/-! `placeField` -/
@[simp] theorem State.placeField_seq (s : State) (m v : Word) : (s.placeField m v).seq = s.seq := rfl
@[simp] theorem State.placeField_fr (s : State) (m v : Word) : (s.placeField m v).fr = s.fr := rfl
@[simp] theorem State.placeField_t0 (s : State) (m v : Word) : (s.placeField m v).t0 = s.t0 := rfl
@[simp] theorem State.placeField_carrier (s : State) (m v : Word) : (s.placeField m v).carrier = s.carrier := rfl
@[simp] theorem State.placeField_busy (s : State) (m v : Word) : (s.placeField m v).busy = s.busy := rfl
@[simp] theorem State.placeField_cmd (s : State) (m v : Word) : (s.placeField m v).cmd = s.cmd := rfl
@[simp] theorem State.placeField_txReq (s : State) (m v : Word) : (s.placeField m v).txReq = s.txReq := rfl
@[simp] theorem State.placeField_txFrame (s : State) (m v : Word) : (s.placeField m v).txFrame = (s.txFrame &&& ~~~m) ||| v := rfl
@[simp] theorem State.placeField_resetIn (s : State) (m v : Word) : (s.placeField m v).resetIn = s.resetIn := rfl
@[simp] theorem State.placeField_tempPolicy (s : State) (m v : Word) : (s.placeField m v).tempPolicy = s.tempPolicy := rfl
@[simp] theorem State.placeField_platform (s : State) (m v : Word) : (s.placeField m v).platform = s.platform := rfl
@[simp] theorem State.placeField_host (s : State) (m v : Word) : (s.placeField m v).host = s.host := rfl
@[simp] theorem State.placeField_clock (s : State) (m v : Word) : (s.placeField m v).clock = s.clock := rfl
@[simp] theorem State.placeField_timeIn (s : State) (m v : Word) : (s.placeField m v).timeIn = s.timeIn := rfl
@[simp] theorem State.placeField_draws (s : State) (m v : Word) : (s.placeField m v).draws = s.draws := rfl
@[simp] theorem State.placeField_trace (s : State) (m v : Word) : (s.placeField m v).trace = s.trace := rfl

/-! `nextResetIn` -/
@[simp] theorem State.nextResetIn_seq (s : State) : s.nextResetIn.seq = s.seq := rfl
@[simp] theorem State.nextResetIn_fr (s : State) : s.nextResetIn.fr = s.fr := rfl
@[simp] theorem State.nextResetIn_t0 (s : State) : s.nextResetIn.t0 = s.t0 := rfl
@[simp] theorem State.nextResetIn_carrier (s : State) : s.nextResetIn.carrier = s.carrier := rfl
@[simp] theorem State.nextResetIn_busy (s : State) : s.nextResetIn.busy = s.busy := rfl
@[simp] theorem State.nextResetIn_cmd (s : State) : s.nextResetIn.cmd = s.cmd := rfl
@[simp] theorem State.nextResetIn_txReq (s : State) : s.nextResetIn.txReq = s.txReq := rfl
@[simp] theorem State.nextResetIn_txFrame (s : State) : s.nextResetIn.txFrame = s.txFrame := rfl
@[simp] theorem State.nextResetIn_resetIn (s : State) : s.nextResetIn.resetIn = s.resetIn.tail := rfl
@[simp] theorem State.nextResetIn_tempPolicy (s : State) : s.nextResetIn.tempPolicy = s.tempPolicy := rfl
@[simp] theorem State.nextResetIn_platform (s : State) : s.nextResetIn.platform = s.platform := rfl
@[simp] theorem State.nextResetIn_host (s : State) : s.nextResetIn.host = s.host := rfl
@[simp] theorem State.nextResetIn_clock (s : State) : s.nextResetIn.clock = s.clock := rfl
@[simp] theorem State.nextResetIn_timeIn (s : State) : s.nextResetIn.timeIn = s.timeIn := rfl
@[simp] theorem State.nextResetIn_draws (s : State) : s.nextResetIn.draws = s.draws := rfl
@[simp] theorem State.nextResetIn_trace (s : State) : s.nextResetIn.trace = s.trace := rfl

/-! `accept` -/
@[simp] theorem State.accept_seq (s : State) (w : Word) : (s.accept w).seq = .run 0 := rfl
@[simp] theorem State.accept_fr (s : State) (w : Word) : (s.accept w).fr = some w := rfl
@[simp] theorem State.accept_carrier (s : State) (w : Word) : (s.accept w).carrier = true := rfl
@[simp] theorem State.accept_busy (s : State) (w : Word) : (s.accept w).busy = true := rfl
@[simp] theorem State.accept_cmd (s : State) (w : Word) : (s.accept w).cmd = s.cmd := rfl
@[simp] theorem State.accept_txReq (s : State) (w : Word) : (s.accept w).txReq = false := rfl
@[simp] theorem State.accept_txFrame (s : State) (w : Word) : (s.accept w).txFrame = w := rfl
@[simp] theorem State.accept_resetIn (s : State) (w : Word) : (s.accept w).resetIn = s.resetIn := rfl
@[simp] theorem State.accept_tempPolicy (s : State) (w : Word) : (s.accept w).tempPolicy = s.tempPolicy := rfl
@[simp] theorem State.accept_platform (s : State) (w : Word) : (s.accept w).platform = s.platform := rfl
@[simp] theorem State.accept_host (s : State) (w : Word) : (s.accept w).host = s.host := rfl
@[simp] theorem State.accept_timeIn (s : State) (w : Word) : (s.accept w).timeIn = s.timeIn.tail.tail.tail := rfl
@[simp] theorem State.accept_draws (s : State) (w : Word) : (s.accept w).draws = s.draws + 1 + 1 + 1 := rfl

end Sys2Proof.Machine
end

