-- ==== Sys2Proof/Laws/Ops.lean ====
section
/-! SUPPORT. One lemma per shared operation that says everything it can do; proofs cite these and do not unfold it. -/

namespace Sys2Proof.Machine

/-! ### Reads and time -/

theorem State.readFR_ok (s : State) (w : Word) : s.readFR = .ok w ↔ s.fr = some w := by
  cases h : s.fr <;> simp [State.readFR, h]

theorem State.readT0_ok (s : State) (t0 : Micros) : s.readT0 = .ok t0 ↔ s.t0 = some t0 := by
  cases h : s.t0 <;> simp [State.readT0, h]

/-- Where FR holds a word, every phase uses it. -/
theorem State.frameFor_of_fr {s : State} {w : Word} (h : s.fr = some w) (p : Ph) : s.frameFor p = .ok w := by
  simp [State.frameFor, h]

/-- A phase that reads no bit of FR needs no value in it. -/
theorem State.frameFor_of_not_readsFR (s : State) {p : Ph} (h : readsFR p = false) : s.frameFor p = .ok (s.fr.getD 0) := by
  cases hfr : s.fr <;> simp [State.frameFor, hfr, h]

/-- The word that a phase uses is the word in FR, if there is one. -/
theorem State.frameFor_ok {s : State} {p : Ph} {w : Word} (h : s.frameFor p = .ok w) : w = s.fr.getD 0 := by
  cases hfr : s.fr with
  | some v => simpa [State.frameFor, hfr, eq_comm] using h
  | none =>
    cases hp : readsFR p <;> simp [State.frameFor, State.readFR, hfr, hp] at h
    exact h.symm

/-- A phase has no word to use only where it reads FR and FR holds no value. -/
theorem State.frameFor_error {s : State} {p : Ph} {f : Fault} (h : s.frameFor p = .error f) :
    f = .frNoValue ∧ s.fr = none ∧ readsFR p = true := by
  cases hfr : s.fr with
  | some w => simp [State.frameFor, hfr] at h
  | none => cases hp : readsFR p <;> simp_all [State.frameFor, State.readFR]

/-- T0 cannot be read only where it holds no value. -/
theorem State.readT0_error {s : State} {f : Fault} (h : s.readT0 = .error f) : f = .t0NoValue ∧ s.t0 = none := by
  cases ht0 : s.t0 <;> simp_all [State.readT0]

/-- The level of a phase that reads no bit of FR is the same for every word (41_modulator.md R89, R91, R92). -/
theorem levelOf_of_not_readsFR {p : Ph} (h : readsFR p = false) (w v : Word) : levelOf w p = levelOf v p := by
  cases p with
  | bit i h' => simp [readsFR] at h
  | trl1 h' => cases h' <;> rfl
  | trl0 h' => cases h' <;> rfl
  | preOn => rfl
  | preOff => rfl
  | stopOn => rfl

@[simp] theorem State.timer_eq (s : State) : s.timer = BitVec.ofNat 64 s.clock := rfl

theorem State.clock_le_tick (s : State) : s.clock ≤ s.tick.clock := by simp

/-- Modular elapsed time never exceeds the true one, so a phase never ends early (41_modulator.md R104, R107). -/
theorem elapsed64_le (c0 c : Nat) (h : c0 ≤ c) :
    (elapsed64 (BitVec.ofNat 64 c0) (BitVec.ofNat 64 c)).toNat ≤ c - c0 := by
  simp only [elapsed64, BitVec.toNat_sub, BitVec.toNat_ofNat]
  omega

theorem phaseEnded_iff (t0 t : Micros) (d : Nat) : phaseEnded t0 t d = true ↔ d ≤ (elapsed64 t0 t).toNat := by
  simp [phaseEnded]

/-! ### The sequencer -/

/-- `Advance` begins the next phase, or finishes after phase 210. -/
theorem State.advance_cases (s : State) (w : Word) (k : Fin 211) :
    (∃ h : k.val + 1 < 211, s.advance w k = s.beginPhase w ⟨k.val + 1, h⟩) ∨ (k.val = 210 ∧ s.advance w k = s.finish) := by
  by_cases h : k.val + 1 < 211
  · exact .inl ⟨h, by simp [State.advance, h]⟩
  · exact .inr ⟨by omega, by simp [State.advance, h]⟩

/-- A poll stays, or begins the next phase, or finishes; it ends the phase exactly when the elapsed time has reached the
duration. -/
theorem State.poll_cases (s : State) (w : Word) (t0 : Micros) (k : Fin 211) :
    (phaseEnded t0 s.timerRead.timer (durOf (phaseOf k)) = false ∧ s.poll w t0 k = s.timerRead) ∨
    (phaseEnded t0 s.timerRead.timer (durOf (phaseOf k)) = true ∧
      ((∃ h : k.val + 1 < 211, s.poll w t0 k = s.timerRead.beginPhase w ⟨k.val + 1, h⟩) ∨
       (k.val = 210 ∧ s.poll w t0 k = s.timerRead.finish))) := by
  cases h : phaseEnded t0 s.timerRead.timer (durOf (phaseOf k))
  · exact .inl ⟨rfl, by simp only [State.poll, h, Bool.false_eq_true, if_false]⟩
  · refine .inr ⟨rfl, ?_⟩
    have hp : s.poll w t0 k = s.timerRead.advance w k := by simp only [State.poll, h, if_true]
    rw [hp]
    exact s.timerRead.advance_cases w k

/-- An element that answers a next state has changed nothing, or it has polled in a phase of its own, with T0 written and
the word in FR if there is one. -/
theorem State.runElement_next {s t : State} {i : Instr} (h : s.runElement i = .next t) :
    t = s ∨ ∃ k t0, s.seq = .run k ∧ s.t0 = some t0 ∧ elementAt (s.fr.getD 0) k = i ∧ t = s.poll (s.fr.getD 0) t0 k := by
  unfold State.runElement at h
  split at h
  · exact .inl (by cases h; rfl)
  · rename_i k hseq
    split at h
    · cases h
    · rename_i w hw
      obtain rfl := State.frameFor_ok hw
      split at h
      · rename_i hi
        split at h
        · cases h
        · rename_i t0 ht0
          split at h
          · cases h
          · rename_i w' hw'
            obtain rfl := State.frameFor_ok hw'
            exact .inr ⟨k, t0, hseq, (s.readT0_ok t0).1 ht0, hi, by cases h; rfl⟩
      · exact .inl (by cases h; rfl)

/-- An element in a phase of its own, with FR and T0 written, polls. -/
theorem State.runElement_eq {s : State} {k : Fin 211} {w : Word} {t0 : Micros} (hseq : s.seq = .run k)
    (hfr : s.fr = some w) (ht0 : s.t0 = some t0) : s.runElement (elementAt w k) = .next (s.poll w t0 k) := by
  simp [State.runElement, hseq, State.frameFor_of_fr hfr, State.readT0, ht0]

/-- An element whose phase, and the phase its poll leaves the sequencer in, read no bit of FR polls with or without a value
in FR. -/
theorem State.runElement_eq_of_not_readsFR {s : State} {k : Fin 211} {t0 : Micros} (hseq : s.seq = .run k)
    (ht0 : s.t0 = some t0) (hk : readsFR (phaseOf k) = false) (hn : readsFR (s.phaseAfterPoll t0 k) = false) :
    s.runElement (elementAt (s.fr.getD 0) k) = .next (s.poll (s.fr.getD 0) t0 k) := by
  simp [State.runElement, hseq, State.frameFor_of_not_readsFR s hk, State.frameFor_of_not_readsFR s hn, State.readT0, ht0]

/-- An element in IDLE changes nothing. -/
theorem State.runElement_idle {s : State} (hseq : s.seq = .idle) (i : Instr) : s.runElement i = .next s := by
  simp [State.runElement, hseq]

/-- An element in a phase of another element changes nothing. -/
theorem State.runElement_other {s : State} {k : Fin 211} {w : Word} {i : Instr} (hseq : s.seq = .run k)
    (hfr : s.fr = some w) (hi : elementAt w k ≠ i) : s.runElement i = .next s := by
  simp [State.runElement, hseq, State.frameFor_of_fr hfr, hi]

/-- An element faults only in a running phase, on a read of FR or T0 while it holds no value. -/
theorem State.runElement_fault {s : State} {i : Instr} {f : Fault} (h : s.runElement i = .fault f) :
    ∃ k, s.seq = .run k ∧ ((f = .frNoValue ∧ s.fr = none) ∨ (f = .t0NoValue ∧ s.t0 = none)) := by
  unfold State.runElement at h
  split at h
  · cases h
  · rename_i k hseq
    refine ⟨k, hseq, ?_⟩
    split at h
    · rename_i g hg
      obtain ⟨rfl, hfr, -⟩ := State.frameFor_error hg
      exact .inl ⟨by cases h; rfl, hfr⟩
    · split at h
      · split at h
        · rename_i g hg
          obtain ⟨rfl, ht0⟩ := State.readT0_error hg
          exact .inr ⟨by cases h; rfl, ht0⟩
        · split at h
          · rename_i g hg
            obtain ⟨rfl, hfr, -⟩ := State.frameFor_error hg
            exact .inl ⟨by cases h; rfl, hfr⟩
          · cases h
      · cases h

/-! ### TRANSMIT -/

/-- The state in which an accepted transmission begins its first phase. -/
theorem State.accept_eq (s : State) (w : Word) :
    s.accept w = { ({ s with txFrame := w, txReq := false }.tick.record (.accept w)).setBusy with fr := some w }.beginPhase w 0 :=
  rfl

/-- T0 is the reading that ended the acceptance. -/
@[simp] theorem State.accept_t0 (s : State) (w : Word) : (s.accept w).t0 = some (s.accept w).timer := rfl

/-- The three events of an acceptance (41_modulator.md R97, R93). -/
theorem State.accept_trace_kinds (s : State) (w : Word) :
    (s.accept w).trace.map Event.kind =
      .timerRead (s.accept w).timer :: .carrierWrite true :: .accept w :: s.trace.map Event.kind := rfl

/-- TRANSMIT answers a next state only with the boot premises met: held while BUSY, accepted otherwise. -/
theorem State.requestTransmit_next {s t : State} {w : Word} (h : s.requestTransmit w = .next t) :
    s.platform.ready ∧ ((s.busy = true ∧ t = s.hold w) ∨ (s.busy = false ∧ t = s.accept w)) := by
  unfold State.requestTransmit at h
  split at h
  · cases h
  · rename_i hp
    split at h
    · cases h
    · rename_i hc
      refine ⟨⟨by simpa using hp, hc⟩, ?_⟩
      split at h
      · rename_i hb
        exact .inl ⟨hb, by cases h; rfl⟩
      · rename_i hb
        exact .inr ⟨by simpa using hb, by cases h; rfl⟩

/-- TRANSMIT never faults. -/
theorem State.requestTransmit_not_fault (s : State) (w : Word) (f : Fault) : s.requestTransmit w ≠ .fault f := by
  unfold State.requestTransmit
  split
  · simp
  · split
    · simp
    · split <;> simp

/-! ### RESET's line, and the fetch -/

/-- A host operation taken from the list hands on the state as it is, or with TX_FRAME driven or what `configure_carrier`
sets. -/
theorem State.fetchHost_state (s : State) (op : HostOp) :
    (∀ slot bits t, s.fetchHost op = .word slot bits t → t = s) ∧
    (∀ t, s.fetchHost op = .quiet t → ∃ p x, t = { s with platform := p, txFrame := x }) := by
  have hseq : (∀ slot bits t, s.fetchSequencer = .word slot bits t → t = s) ∧
      (∀ t, s.fetchSequencer = .quiet t → t = s) := by
    unfold State.fetchSequencer
    constructor
    · intro slot bits t h
      split at h
      · split at h <;> simp_all
      · split at h <;> simp_all
    · intro t h
      split at h
      · split at h <;> simp_all
      · split at h <;> simp_all
  cases op with
  | encode c => exact ⟨by simp +contextual [State.fetchHost], by simp [State.fetchHost]⟩
  | transmit w => exact ⟨by simp +contextual [State.fetchHost], by simp [State.fetchHost]⟩
  | transmitFrameOut =>
    cases hf : s.frameOut <;> exact ⟨by simp +contextual [State.fetchHost, hf], by simp [State.fetchHost, hf]⟩
  | setField f b => exact ⟨by simp +contextual [State.fetchHost], by simp [State.fetchHost]⟩
  | configureCarrier c =>
    constructor
    · intro slot bits t h
      simp only [State.fetchHost, State.foreignAtCarrier] at h
      split at h <;> cases h
    · intro t h
      simp only [State.fetchHost, State.foreignAtCarrier] at h
      split at h <;> cases h
      exact ⟨_, _, rfl⟩
  | foreignSetCarrier on =>
    constructor
    · intro slot bits t h
      simp only [State.fetchHost, State.foreignAtCarrier] at h
      split at h <;> cases h
    · intro t h
      simp only [State.fetchHost, State.foreignAtCarrier] at h
      split at h <;> cases h
      exact ⟨_, _, rfl⟩
  | driveTxFrame w => exact ⟨by simp [State.fetchHost], by simp +contextual [State.fetchHost, State.driveTxFrame, eq_comm]⟩
  | idle => exact ⟨hseq.1, fun t h => ⟨s.platform, s.txFrame, hseq.2 t h⟩⟩

/-- What the fetch hands on is the state it was given but for the host's list, the platform and TX_FRAME. -/
theorem State.fetch_state {s t : State}
    (h : (∃ slot bits, s.fetch = .word slot bits t) ∨ s.fetch = .quiet t) :
    ∃ ops p x, t = { s with host := ops, platform := p, txFrame := x } := by
  have key : ∀ (u : State) (op : HostOp), ((∃ slot bits, u.fetchHost op = .word slot bits t) ∨ u.fetchHost op = .quiet t) →
      ∃ p x, t = { u with platform := p, txFrame := x } := by
    rintro u op (⟨slot, bits, hw⟩ | hq)
    · exact ⟨u.platform, u.txFrame, by rw [(u.fetchHost_state op).1 _ _ _ hw]⟩
    · exact (u.fetchHost_state op).2 _ hq
  have hidle : s.fetchSequencer = s.fetchHost .idle := rfl
  unfold State.fetch at h
  split at h
  · rw [hidle] at h
    obtain ⟨p, x, rfl⟩ := key s _ h
    exact ⟨s.host, p, x, rfl⟩
  · split at h
    · rw [hidle] at h
      obtain ⟨p, x, rfl⟩ := key s _ h
      exact ⟨s.host, p, x, rfl⟩
    · obtain ⟨p, x, rfl⟩ := key _ _ h
      exact ⟨_, p, x, rfl⟩

/-- Bits that name no operation are refused, or leave everything as it is but TX_FRAME; they never fault. -/
theorem State.unnamed_cases (s : State) (slot : Slot) (bits : Word) (e : DecodeError) :
    (∃ r, s.unnamed slot bits e = .refused r) ∨ ∃ x, s.unnamed slot bits e = .next { s with txFrame := x } := by
  have field : ∃ x, s.driveField slot bits = { s with txFrame := x } := by
    cases slot <;> exact ⟨_, rfl⟩
  obtain ⟨x, hx⟩ := field
  cases e with
  | cmd c => exact .inl ⟨_, rfl⟩
  | unassignedMode => exact .inr ⟨x, by rw [← hx]; rfl⟩
  | reservedNotZero => exact .inr ⟨x, by rw [← hx]; rfl⟩
  | noWaveRow => exact .inr ⟨s.txFrame, rfl⟩

end Sys2Proof.Machine
end

