-- ==== Sys2Proof/Laws/PerInstr.lean ====
section
/-! SUPPORT. A fact of every instruction as syntax: its encoding matches its own row of spec/opcode_table.json,
"`(value & mask) = match`" (30_encoding.md R64). -/

namespace Sys2Proof.Laws.TableRow

/-- The encoding of `i` matches the row of `i`. -/
def Statement (i : Instr) : Prop := (encode i).2 &&& rowMask i = rowMatch i

theorem temp_above_reserved (t : BitVec 8) : (t.setWidth 16 <<< 8).setWidth 32 &&& 0xC0#32 = 0#32 := by
  revert t; decide

theorem encode (c : Command) : Statement (.encode c) := by
  show (packCmd c).setWidth 32 &&& 0xC0#32 = 0#32
  rcases c with ⟨f, m, a, t⟩
  simp only [packCmd, BitVec.setWidth_or, BitVec.and_comm _ 0xC0#32, BitVec.and_or_distrib_left]
  rw [BitVec.and_comm 0xC0#32 (BitVec.setWidth 32 (BitVec.setWidth 16 t <<< 8)), temp_above_reserved]
  cases f <;> cases m <;> cases a <;> rfl

theorem transmit (w : Word) : Statement (.transmit w) := by simp [Statement, Sys2Proof.encode, rowMask, rowMatch]
theorem fnSetting : Statement .fnSetting := rfl
theorem fnPower : Statement .fnPower := rfl
theorem modeCool : Statement .modeCool := rfl
theorem modeHeat : Statement .modeHeat := rfl
theorem modeRecycle : Statement .modeRecycle := rfl
theorem modeWater : Statement .modeWater := rfl
theorem modeFan : Statement .modeFan := rfl
theorem fanLow : Statement .fanLow := rfl
theorem fanMed : Statement .fanMed := rfl
theorem fanHi : Statement .fanHi := rfl
theorem fanAuto : Statement .fanAuto := rfl
theorem temp (code : TempCode) : Statement (.temp code) := by simp [Statement, Sys2Proof.encode, rowMask, rowMatch]
theorem rsvd8to6 : Statement .rsvd8to6 := rfl
theorem rsvd31to17 : Statement .rsvd31to17 := rfl
theorem preamble : Statement .preamble := rfl
theorem sym1 : Statement .sym1 := rfl
theorem sym0 : Statement .sym0 := rfl
theorem trailer1 : Statement .trailer1 := rfl
theorem trailer0 : Statement .trailer0 := rfl
theorem stop : Statement .stop := rfl

end Sys2Proof.Laws.TableRow
end

