-- ==== Sys2Proof/Laws/Step.lean ====
section
/-! SUPPORT. What an instruction and a step can do, once for all; invariants are proved from these. -/

namespace Sys2Proof.Machine

/-- An instruction that gives a next state only drives ports (or changes nothing), or accepts a transmission while BUSY = 0,
or polls with the word in FR. -/
theorem exec_cases {i : Instr} {s t : State} (h : exec i s = .next t) :
    (∃ c r x, t = { s with cmd := c, txReq := r, txFrame := x }) ∨
    (s.busy = false ∧ ∃ w, t = s.accept w) ∨
    (∃ k t0, s.seq = .run k ∧ s.t0 = some t0 ∧ t = s.poll (s.fr.getD 0) t0 k) := by
  have ports : ∀ m v : Word, (Host.Outcome.next (s.placeField m v) : Host.Outcome State Fault Refusal) = .next t →
      ∃ c r x, t = { s with cmd := c, txReq := r, txFrame := x } := by
    intro m v hp
    cases hp
    exact ⟨s.cmd, s.txReq, _, rfl⟩
  have wave : ∀ j : Instr, s.runElement j = .next t → (∃ c r x, t = { s with cmd := c, txReq := r, txFrame := x }) ∨
      (s.busy = false ∧ ∃ w, t = s.accept w) ∨
      ∃ k t0, s.seq = .run k ∧ s.t0 = some t0 ∧ t = s.poll (s.fr.getD 0) t0 k := by
    intro j hj
    obtain rfl | ⟨k, t0, h1, h2, -, h3⟩ := State.runElement_next hj
    · exact .inl ⟨t.cmd, t.txReq, t.txFrame, rfl⟩
    · exact .inr (.inr ⟨k, t0, h1, h2, h3⟩)
  cases i with
  | encode c =>
    simp only [exec, execEncode] at h
    split at h <;> cases h
    exact .inl ⟨_, s.txReq, s.txFrame, rfl⟩
  | transmit w =>
    obtain ⟨-, ⟨-, rfl⟩ | ⟨hb, rfl⟩⟩ := State.requestTransmit_next h
    · exact .inl ⟨s.cmd, _, _, rfl⟩
    · exact .inr (.inl ⟨hb, w, rfl⟩)
  | fnSetting => exact .inl (ports _ _ h)
  | fnPower => exact .inl (ports _ _ h)
  | modeCool => exact .inl (ports _ _ h)
  | modeHeat => exact .inl (ports _ _ h)
  | modeRecycle => exact .inl (ports _ _ h)
  | modeWater => exact .inl (ports _ _ h)
  | modeFan => exact .inl (ports _ _ h)
  | fanLow => exact .inl (ports _ _ h)
  | fanMed => exact .inl (ports _ _ h)
  | fanHi => exact .inl (ports _ _ h)
  | fanAuto => exact .inl (ports _ _ h)
  | temp code => exact .inl (ports _ _ h)
  | rsvd8to6 => exact .inl (ports _ _ h)
  | rsvd31to17 => exact .inl (ports _ _ h)
  | preamble => exact wave _ h
  | sym1 => exact wave _ h
  | sym0 => exact wave _ h
  | trailer1 => exact wave _ h
  | trailer0 => exact wave _ h
  | stop => exact wave _ h

/-- An instruction faults only in a running phase, on a read of FR or T0 while it holds no value. -/
theorem exec_fault {i : Instr} {s : State} {f : Fault} (h : exec i s = .fault f) :
    ∃ k, s.seq = .run k ∧ ((f = .frNoValue ∧ s.fr = none) ∨ (f = .t0NoValue ∧ s.t0 = none)) := by
  cases i with
  | encode c =>
    simp only [exec, execEncode] at h
    split at h <;> cases h
  | transmit w => exact absurd h (s.requestTransmit_not_fault w f)
  | fnSetting => cases h
  | fnPower => cases h
  | modeCool => cases h
  | modeHeat => cases h
  | modeRecycle => cases h
  | modeWater => cases h
  | modeFan => cases h
  | fanLow => cases h
  | fanMed => cases h
  | fanHi => cases h
  | fanAuto => cases h
  | temp code => cases h
  | rsvd8to6 => cases h
  | rsvd31to17 => cases h
  | preamble => exact State.runElement_fault h
  | sym1 => exact State.runElement_fault h
  | sym0 => exact State.runElement_fault h
  | trailer1 => exact State.runElement_fault h
  | trailer0 => exact State.runElement_fault h
  | stop => exact State.runElement_fault h

/-- The state an instruction of this step runs in: the one given, but for the RESET line, the host's list, the platform and
TX_FRAME. -/
def State.handedOn (s : State) (ops : List HostOp) (p : Platform) (x : Word) : State :=
  { s with resetIn := s.resetIn.tail, host := ops, platform := p, txFrame := x }

/-- A step that gives a next state: RESET; or, with RESET released, only ports driven, or an acceptance, or a poll. -/
theorem step_cases {s t : State} (h : step s = .next t) :
    (s.resetLevel = true ∧ t = s.nextResetIn.applyReset) ∨
    (s.resetLevel = false ∧ ∃ ops p x,
      (∃ c r y, t = { s.handedOn ops p x with cmd := c, txReq := r, txFrame := y }) ∨
      (s.busy = false ∧ ∃ w, t = (s.handedOn ops p x).accept w) ∨
      (∃ k t0, s.seq = .run k ∧ s.t0 = some t0 ∧ t = (s.handedOn ops p x).poll (s.fr.getD 0) t0 k)) := by
  cases hr : s.resetLevel with
  | true => exact .inl ⟨rfl, by simp [step, hr] at h; exact h.symm⟩
  | false =>
    refine .inr ⟨rfl, ?_⟩
    simp only [step, hr, Bool.false_eq_true, if_false] at h
    split at h
    · rename_i slot bits u hu
      obtain ⟨ops, p, x, rfl⟩ := State.fetch_state (.inl ⟨slot, bits, hu⟩)
      split at h
      · exact ⟨ops, p, x, exec_cases h⟩
      · rename_i e he
        obtain ⟨r, hr⟩ | ⟨y, hy⟩ := State.unnamed_cases (s.handedOn ops p x) slot bits e
        · cases hr.symm.trans h
        · cases hy.symm.trans h
          exact ⟨ops, p, x, .inl ⟨s.cmd, s.txReq, y, rfl⟩⟩
    · rename_i u hu
      obtain ⟨ops, p, x, rfl⟩ := State.fetch_state (.inr hu)
      cases h
      exact ⟨ops, p, x, .inl ⟨s.cmd, s.txReq, x, rfl⟩⟩
    · cases h
    · cases h

end Sys2Proof.Machine
end

