-- ==== Sys2Proof/Laws/Time.lean ====
section
/-! SUPPORT. The timer's draws: how an event takes one, and that the free draws are those of a fair clock and of no
narrower one (60_exceptions.md R124; log 6). -/

namespace Sys2Proof

/-- A clock of `fairDraw` always moves again. -/
theorem Config.fairDraw_moves_again (stall move : Nat → Nat) (m : Nat) :
    ∀ k z, ∃ n, m ≤ n ∧ Config.fairDraw stall move k z n ≠ 0 := by
  have next : ∀ d k z, stall k - z ≤ d → ∃ n, Config.fairDraw stall move k z n ≠ 0 := by
    intro d
    induction d with
    | zero =>
      intro k z hd
      exact ⟨0, by simp [Config.fairDraw, show ¬ z < stall k by omega]⟩
    | succ d ih =>
      intro k z hd
      by_cases hz : z < stall k
      · obtain ⟨n, hn⟩ := ih k (z + 1) (by omega)
        exact ⟨n + 1, by simpa [Config.fairDraw, hz] using hn⟩
      · exact ⟨0, by simp [Config.fairDraw, hz]⟩
  induction m with
  | zero =>
    intro k z
    obtain ⟨n, hn⟩ := next _ k z le_rfl
    exact ⟨n, by omega, hn⟩
  | succ m ih =>
    intro k z
    by_cases hz : z < stall k
    · obtain ⟨n, hm, hn⟩ := ih k (z + 1)
      exact ⟨n + 1, by omega, by simpa [Config.fairDraw, hz] using hn⟩
    · obtain ⟨n, hm, hn⟩ := ih (k + 1) 0
      exact ⟨n + 1, by omega, by simpa [Config.fairDraw, hz] using hn⟩

/-- Every sequence of draws that always moves again is one of `fairDraw`: it fixes nothing but fairness. -/
theorem Config.fairDraw_covers (f : Nat → Nat) (hf : ∀ m, ∃ n, m ≤ n ∧ f n ≠ 0) :
    ∃ stall move, ∀ n, Config.fairDraw stall move 0 0 n = f n := by
  choose next hle hne using hf
  have hf' : ∀ m, ∃ d, f (m + d) ≠ 0 := fun m => ⟨next m - m, by rw [Nat.add_sub_cancel' (hle m)]; exact hne m⟩
  let gap : Nat → Nat := fun m => Nat.find (hf' m)
  let start : Nat → Nat := fun k => k.rec 0 fun _ m => m + gap m + 1
  have hstart : ∀ k, start (k + 1) = start k + gap (start k) + 1 := fun k => rfl
  have key : ∀ n k z, z ≤ gap (start k) →
      Config.fairDraw (fun k => gap (start k)) (fun k => f (start k + gap (start k)) - 1) k z n = f (start k + z + n) := by
    intro n
    induction n with
    | zero =>
      intro k z hz
      by_cases hlt : z < gap (start k)
      · have := Nat.find_min (hf' (start k)) hlt
        simp only [Config.fairDraw, hlt, if_true, Nat.add_zero]
        omega
      · have hpos : f (start k + gap (start k)) ≠ 0 := Nat.find_spec (hf' (start k))
        obtain rfl : z = gap (start k) := by omega
        simp only [Config.fairDraw, lt_irrefl, if_false, Nat.add_zero]
        omega
    | succ n ih =>
      intro k z hz
      by_cases hlt : z < gap (start k)
      · simp only [Config.fairDraw, hlt, if_true]
        rw [ih k (z + 1) hlt]
        congr 1
        omega
      · obtain rfl : z = gap (start k) := by omega
        simp only [Config.fairDraw, lt_irrefl, if_false]
        rw [ih (k + 1) 0 (Nat.zero_le _), hstart]
        congr 1
        omega
  exact ⟨_, _, fun n => by simpa [start] using key n 0 0 (Nat.zero_le _)⟩

namespace Machine

/-- A listed draw is the draw. -/
theorem State.drawAt_listed {s : State} {n a : Nat} (h : s.timeIn[n]? = some a) : s.drawAt n = a := by
  simp [State.drawAt, h]

/-- Past the list the draws are the free ones. -/
theorem State.drawAt_free {s : State} {n : Nat} (h : s.timeIn.length ≤ n) :
    s.drawAt n = Config.timerAdvance (s.draws + n) := by
  simp [State.drawAt, List.getElem?_eq_none h]

/-- An event takes the first of the coming draws. -/
theorem State.tick_drawAt (s : State) (n : Nat) : s.tick.drawAt n = s.drawAt (n + 1) := by
  simp only [State.drawAt, State.tick, List.getElem?_tail, Nat.add_assoc, Nat.add_comm 1 n]

/-- Recording an event takes no draw. -/
@[simp] theorem State.record_drawAt (s : State) (e : EventKind) (n : Nat) : (s.record e).drawAt n = s.drawAt n := rfl

theorem State.timerRead_drawAt (s : State) (n : Nat) : s.timerRead.drawAt n = s.drawAt (n + 1) := s.tick_drawAt n

theorem State.carrierWrite_drawAt (s : State) (on : Bool) (n : Nat) : (s.carrierWrite on).drawAt n = s.drawAt (n + 1) :=
  s.tick_drawAt n

end Machine

end Sys2Proof
end

