-- ==== Sys2Proof/Tests/Slice0.lean ====
section
/-! SUPPORT. Tests whose expected results are the spec's own (95_test_vectors.md, the tables of 30_encoding.md and
41_modulator.md), and for each statement with hypotheses a witness that meets them together. -/

namespace Sys2Proof.Tests
open Sys2Proof.Machine

/-! ### Helpers -/

/-- A block in phase `k` of a transmission of `w`, T0 at 1000, whose next poll comes when `d` microseconds have elapsed. -/
def inPhase (w : Word) (k : Fin 211) (d : Nat) : State :=
  { State.reset with seq := .run k, fr := some w, t0 := some 1000, busy := true, carrier := levelOf w (phaseOf k),
                     clock := 1000, timeIn := [d, 0, 0], trace := [⟨1000, .timerRead 1000⟩, ⟨1000, .carrierWrite true⟩] }

/-- The trace of a transmission of `w` at its last phase, newest first (in an order that WaveOnTrace reads the same). -/
def lastPhaseTrace (w : Word) : List Event :=
  List.replicate 421 ⟨1000, .timerRead 1000⟩ ++ (txLevels w).reverse.map (fun b => ⟨1000, .carrierWrite b⟩) ++
    [⟨1000, .accept w⟩]

/-- A block at the end of its last phase. -/
def atStop : State := { inPhase 0x3839 210 4000 with trace := lastPhaseTrace 0x3839 }

/-- The state after an outcome, or the one given where there is none. -/
def after (s : State) (o : Host.Outcome State Fault Refusal) : State :=
  match o with
  | .next t => t
  | .fault _ => s
  | .refused _ => s

/-- The fault of an outcome. -/
def fault (o : Host.Outcome State Fault Refusal) : Option Fault :=
  match o with
  | .next _ => none
  | .fault f => some f
  | .refused _ => none

/-- The refusal of an outcome. -/
def refusal (o : Host.Outcome State Fault Refusal) : Option Refusal :=
  match o with
  | .next _ => none
  | .fault _ => none
  | .refused r => some r

/-- Does the outcome give a next state? -/
def completes (o : Host.Outcome State Fault Refusal) : Bool :=
  match o with
  | .next _ => true
  | .fault _ => false
  | .refused _ => false

/-- A reset block whose host runs `op` next. -/
def hosting (op : HostOp) : State := { State.reset with host := [op] }

/-! ### Well-formedness -/

/-- The one check refuses a temperature below 16 and one above 30 (30_encoding.md R45). -/
theorem test_wellFormed_refuses_temperature :
    Instr.wellFormed (.encode ⟨.power, .cool, .low, 15⟩) = false ∧
    Instr.wellFormed (.encode ⟨.power, .cool, .low, 31⟩) = false ∧
    Instr.wellFormed (.encode ⟨.power, .cool, .low, 16⟩) = true ∧
    Instr.wellFormed (.encode ⟨.power, .cool, .low, 30⟩) = true := by decide

/-! ### Decoding: a word for every constructor, bits written out from the spec's encodings -/

/-- CMD16 `tttttttt00ffmmmp` (30_encoding.md R46; 95_test_vectors.md Part 2.1). -/
theorem test_decode_encode :
    decode .cmd 0b0001011000110001 = .ok (.encode ⟨.power, .cool, .auto, 22⟩) ∧
    decode .cmd 0b0001111000011001 = .ok (.encode ⟨.power, .fan, .med, 30⟩) ∧
    decode .cmd 0b0001001000100101 = .ok (.encode ⟨.power, .recycle, .hi, 18⟩) ∧
    decode .cmd 0b0001000000000010 = .ok (.encode ⟨.setting, .heat, .low, 16⟩) ∧
    decode .cmd 0b0001100100100110 = .ok (.encode ⟨.setting, .water, .hi, 25⟩) := by decide

/-- The decoder's rejections on CMD (95_test_vectors.md, refused commands). -/
theorem test_decode_cmd_rejects :
    decode .cmd 0x1641 = .error (.cmd .cmdReserved) ∧ decode .cmd 0x1681 = .error (.cmd .cmdReserved) ∧
    decode .cmd 0x160B = .error (.cmd .modeSelector) ∧ decode .cmd 0x160F = .error (.cmd .modeSelector) ∧
    decode .cmd 0x284E = .error (.cmd .cmdReserved) := by decide

/-- FRAME32: any word is a TRANSMIT (30_encoding.md R66). -/
theorem test_decode_transmit :
    decode .txFrame 0xFFFFFFFF = .ok (.transmit 0xFFFFFFFF) ∧ decode .txFrame 0x3839 = .ok (.transmit 0x3839) := by decide

/-- Function and mode rows (30_encoding.md R47, R49). -/
theorem test_decode_function_and_mode :
    decode (.field .function) 0b0 = .ok .fnSetting ∧ decode (.field .function) 0b1 = .ok .fnPower ∧
    decode (.field .mode) 0b1000 = .ok .modeCool ∧ decode (.field .mode) 0b0100 = .ok .modeHeat ∧
    decode (.field .mode) 0b1100 = .ok .modeRecycle ∧ decode (.field .mode) 0b0010 = .ok .modeWater ∧
    decode (.field .mode) 0b1010 = .ok .modeFan ∧ decode (.field .mode) 0b0110 = .error .unassignedMode ∧
    decode (.field .mode) 0b1110 = .error .unassignedMode ∧ decode (.field .mode) 0b0000 = .error .unassignedMode := by decide

/-- Fan, temperature and reserved rows (30_encoding.md R51, R52, R54, R55). -/
theorem test_decode_fan_temperature_reserved :
    decode (.field .fanSpeed) 0b000000 = .ok .fanLow ∧ decode (.field .fanSpeed) 0b010000 = .ok .fanMed ∧
    decode (.field .fanSpeed) 0b100000 = .ok .fanHi ∧ decode (.field .fanSpeed) 0b110000 = .ok .fanAuto ∧
    decode (.field .tempCode) 0x00003800 = .ok (.temp 0b00011100) ∧
    decode (.field .reserved8to6) 0xFFFFFE3F = .ok .rsvd8to6 ∧
    decode (.field .reserved8to6) 0x00000100 = .error .reservedNotZero ∧
    decode (.field .reserved31to17) 0x0001FFFF = .ok .rsvd31to17 ∧
    decode (.field .reserved31to17) 0x00020000 = .error .reservedNotZero := by decide

/-- WAVE rows: first phase on the left, 1 for carrier on (30_encoding.md R59 to R61, R64). -/
theorem test_decode_wave :
    decode (.wave .preamble) 0b10 = .ok .preamble ∧ decode (.wave .data) 0b01 = .ok .sym1 ∧
    decode (.wave .data) 0b10 = .ok .sym0 ∧ decode (.wave .trailer1) 0b01 = .ok .trailer1 ∧
    decode (.wave .trailer0) 0b10 = .ok .trailer0 ∧ decode (.wave .stop) 0b10 = .ok .stop ∧
    decode (.wave .trailer1) 0b10 = .error .noWaveRow := by decide

/-- The rows of the end-to-end example's word (95_test_vectors.md W8). -/
theorem test_frameRows :
    frameRows 0x3839 = [.fnPower, .modeCool, .fanAuto, .rsvd8to6, .temp 28, .rsvd31to17] := by decide

/-- A table word with no slot given (log 15). -/
theorem test_decodeTableWord :
    decodeTableWord 16 0x1631 = some (.encode ⟨.power, .cool, .auto, 22⟩) ∧
    decodeTableWord 32 0x3839 = some (.transmit 0x3839) ∧ decodeTableWord 8 1 = some .sym1 ∧
    decodeTableWord 8 2 = some .sym0 ∧ decodeTableWord 16 0x1641 = none := by decide

/-! ### ENCODE (95_test_vectors.md Part 2.1) -/

/-- Admitted commands, with the WATER normalisation and both ends of the temperature range. -/
theorem test_frameOf_admitted :
    frameOf .refuse 0x1631 = .ok 0x00003839 ∧ frameOf .refuse 0x1002 = .ok 0x00000804 ∧
    frameOf .refuse 0x1926 = .ok 0x00005002 ∧ frameOf .refuse 0x1E37 = .ok 0x00007803 ∧
    frameOf .refuse 0x1E19 = .ok 0x0000781B ∧ frameOf .refuse 0x1225 = .ok 0x0000182D ∧
    frameOf .refuse 0x1438 = .ok 0x0000283A ∧ frameOf .refuse 0x1C23 = .ok 0x00006825 ∧
    frameOf .refuse 0x1114 = .ok 0x0000101C := by decide

/-- Refused commands, in the order of the checks. -/
theorem test_frameOf_refused :
    frameOf .refuse 0x284E = .error .refCmdRsvd ∧ frameOf .refuse 0x280E = .error .refModeSel ∧
    frameOf .refuse 0x0F01 = .error .refTempRange ∧ frameOf .refuse 0x1F01 = .error .refTempRange ∧
    frameOf .refuse 0x0001 = .error .refTempRange := by decide

/-- Out-of-range temperatures under `wrap`. -/
theorem test_frameOf_wrap :
    frameOf .wrap 0x0F01 = .ok 0x00000009 ∧ frameOf .wrap 0x1F01 = .ok 0x00008009 ∧
    frameOf .wrap 0x0001 = .ok 0x00018809 ∧ frameOf .wrap 0x4F01 = .ok 0x00000009 ∧
    frameOf .wrap 0xFF01 = .ok 0x00018009 := by decide

/-- ENCODE leaves the state elements and shows the word on FRAME_OUT (95_test_vectors.md P1). -/
theorem test_encode_step :
    (after State.reset (step (hosting (.encode 0x1631)))).frameOut = .ok 0x3839 ∧
    (after State.reset (step (hosting (.encode 0x1631)))).seq = .idle := by decide

/-- An out-of-range temperature is refused at the step (95_test_vectors.md P4). -/
theorem test_encode_refused_step : refusal (step (hosting (.encode 0x1F01))) = some .refTempRange := by decide

/-! ### The frame-field rows -/

/-- The rows of POWER COOL AUTO 22 build its word whatever stood on TX_FRAME (95_test_vectors.md W8). -/
theorem test_field_rows_build_word :
    (after State.reset (execAll (frameRows 0x3839) { State.reset with txFrame := 0xFFFFFFFF })).txFrame = 0x3839 := by decide

/-- One field changes and its neighbours stay: bits 3:1 of all ones become 001 (30_encoding.md R49). -/
theorem test_mode_water_row :
    (after State.reset (exec .modeWater { State.reset with txFrame := 0xFFFFFFFF })).txFrame = 0xFFFFFFF3 := by decide

/-! ### TRANSMIT and the phases -/

/-- Acceptance (95_test_vectors.md P1): FR, BUSY, CARRIER and SEQ. -/
theorem test_transmit_accepted :
    let t := after State.reset (step { hosting (.transmit 0x3839) with timeIn := [5, 6, 7] })
    t.fr = some 0x3839 ∧ t.busy = true ∧ t.carrier = true ∧ t.seq = .run 0 ∧ t.t0 = some 18 := by decide

/-- A request while busy is held and FR is not changed (95_test_vectors.md P3). -/
theorem test_transmit_held :
    let t := after State.reset (step { inPhase 0 3 1 with host := [.transmit 0xFFFFFFFF] })
    t.fr = some 0 ∧ t.txReq = true ∧ t.txFrame = 0xFFFFFFFF ∧ t.seq = .run 3 ∧ t.held = true := by decide

/-- The phase levels of one repetition (95_test_vectors.md Part 2.2, words 0x3839 and 0xFFFFFFFF). -/
theorem test_phase_levels :
    (framePhases 0x3839).map Phase.level =
      "1001101001010110101010100101011010101010101010101010101010101010100110".toList.map (fun c => c == '1') ∧
    (framePhases 0xFFFFFFFF).map Phase.level =
      "1001010101010101010101010101010101010101010101010101010101010101010110".toList.map (fun c => c == '1') := by decide +kernel

/-- Phase index corner cases (95_test_vectors.md Part 2.2): the named phase and the nominal start. -/
theorem test_phase_index :
    phaseOf 65 = .bit 31 .second ∧ phaseOf 66 = .trl1 .first ∧ phaseOf 69 = .trl0 .second ∧ phaseOf 70 = .preOn ∧
    phaseOf 75 = .bit 1 .second ∧ phaseOf 37 = .bit 17 .second ∧ phaseOf 209 = .trl0 .second ∧ phaseOf 210 = .stopOn ∧
    repOf 75 = some 1 ∧ repOf 210 = none ∧ nominalStart 0x3839 65 = 65800 ∧ nominalStart 0x3839 209 = 210700 ∧
    nominalStart 0x3839 211 = 215650 := by decide +kernel

/-- Interval counts on the air (95_test_vectors.md Part 2.2). -/
theorem test_air_counts :
    (air (txPhases 0x3839)).length = 187 ∧ (air (txPhases 0)).length = 205 ∧ (air (txPhases 0xAAAAAAAA)).length = 115 ∧
    (air (txPhases 0x55555555)).length = 109 := by decide +kernel

/-! ### Polls (95_test_vectors.md Part 2.3) -/

/-- The end test, with equality and with a wrap of the counter. -/
theorem test_phase_ended :
    phaseEnded 1000 1949 950 = false ∧ phaseEnded 1000 1950 950 = true ∧ phaseEnded 1000 1951 950 = true ∧
    phaseEnded (BitVec.ofNat 64 (2 ^ 64 - 100)) 849 950 = false ∧
    phaseEnded (BitVec.ofNat 64 (2 ^ 64 - 100)) 850 950 = true ∧
    phaseEnded (BitVec.ofNat 64 (2 ^ 64 - 1)) 4000 4000 = true ∧ phaseEnded 5 5 2900 = false := by decide

/-- A poll one microsecond early stays; one in time begins the next phase (41_modulator.md R94, R95, R99). -/
theorem test_poll :
    (after State.reset (step (inPhase 0x3839 0 3049))).seq = .run 0 ∧
    (after State.reset (step (inPhase 0x3839 0 3050))).seq = .run 1 ∧
    (after State.reset (step (inPhase 0x3839 0 3050))).carrier = false ∧
    (after State.reset (step (inPhase 0x3839 2 950))).carrier = true := by decide

/-- The stop pulse ends in IDLE, dark, with TX_DONE (41_modulator.md R96). -/
theorem test_finish :
    let t := after State.reset (step (inPhase 0x3839 210 4000))
    t.seq = .idle ∧ t.busy = false ∧ t.carrier = false ∧ t.txDone = true ∧ t.fr = some 0x3839 := by decide

/-- An element out of its phase is not selected and does nothing (30_encoding.md R64; log 14). -/
theorem test_element_not_selected :
    completes (exec .stop (inPhase 0 0 1)) = true ∧ (after State.reset (exec .stop (inPhase 0 0 1))).seq = .run 0 ∧
    (after (inPhase 0 0 1) (exec .preamble State.reset)).busy = false := by decide

/-- The host drives TX_FRAME with any word and with any value of a field, with no request, also while BUSY, and the word being
sent stays (20_memory.md R43, 70_reset_and_hazards.md R142, 30_encoding.md R57, R66). -/
theorem test_drive_tx_frame :
    let t := after State.reset (step { inPhase 0x3839 0 1 with host := [.driveTxFrame 0xFFFFFFFF] })
    let u := after State.reset (step { State.reset with host := [.setField .mode 0xFFFFFFFF] })
    let v := after State.reset (step { State.reset with host := [.setField .reserved8to6 0x100], txFrame := 0xC0 })
    t.txFrame = 0xFFFFFFFF ∧ t.fr = some 0x3839 ∧ t.txReq = false ∧ u.txFrame = 0xE ∧ v.txFrame = 0x100 := by decide

/-- REP over the phases of a transmission (10_state.md R14). -/
theorem test_rep :
    (inPhase 0 69 1).readRep = .ok (some 0) ∧ (inPhase 0 70 1).readRep = .ok (some 1) ∧
    (inPhase 0 209 1).readRep = .ok (some 2) ∧ (inPhase 0 210 1).readRep = .ok none := by decide

/-- Only data phases read FR (41_modulator.md R100): without a value the preamble polls and begins its second phase, and a
data phase faults (10_state.md R28), also where a poll begins it. -/
theorem test_reads_of_fr :
    (after State.reset (step { inPhase 0 0 3050 with fr := none })).seq = .run 1 ∧
    (after State.reset (step { inPhase 0 69 950 with fr := none })).seq = .run 70 ∧
    (after State.reset (step { inPhase 0 210 4000 with fr := none })).seq = .idle ∧
    fault (step { inPhase 0 2 1 with fr := none }) = some .frNoValue ∧
    fault (step { inPhase 0 1 2900 with fr := none }) = some .frNoValue ∧
    fault (step { inPhase 0 0 1 with t0 := none }) = some .t0NoValue := by decide

/-- Draws of a fair clock: 2 of 0, one of 5, then for the second movement none of 0 and one of 1 (log 6). -/
theorem test_fairDraw :
    (List.range 4).map (Config.fairDraw (fun k => if k = 0 then 2 else 0) (fun k => if k = 0 then 4 else 0) 0 0) =
      [0, 0, 5, 1] := by decide

/-! ### RESET and the premises -/

/-- RESET in `RUN(37)` and in `RUN(210)` with a request held (95_test_vectors.md Part 2.4). -/
theorem test_reset :
    let t := after State.reset (step { inPhase 0x3839 37 1 with resetIn := [true] })
    let u := after State.reset (step { inPhase 0x3839 210 1 with resetIn := [true], txReq := true })
    t.seq = .idle ∧ t.carrier = false ∧ t.busy = false ∧ t.fr = none ∧ t.t0 = none ∧ t.txDone = false ∧
    u.seq = .idle ∧ u.txReq = false ∧ u.txDone = false := by decide

/-- A read of FR right after RESET faults (95_test_vectors.md Part 2.4). -/
theorem test_read_fr_after_reset : State.reset.readFR = .error .frNoValue := by decide

/-- Runs outside the premises are refused by name (93_implementation_defined.md I11, I12). -/
theorem test_premises :
    refusal (exec (.transmit 0) { State.reset with platform := ⟨false, none⟩ }) = some .peripheralUnavailable ∧
    refusal (exec (.transmit 0) { State.reset with platform := ⟨true, none⟩ }) = some .carrierNotConfigured ∧
    refusal (step { inPhase 0 0 1 with host := [.foreignSetCarrier true] }) = some .carrierOwned := by decide

/-- The first step after reset runs a placed word (log 16). -/
theorem test_withFetchWord :
    completes (step (State.reset.withFetchWord 32 0x3839)) = true ∧
    completes (step (State.reset.withFetchWord 16 0x1631)) = true ∧
    completes (step (State.reset.withFetchWord 8 1)) = true ∧ completes (step (State.reset.withFetchWord 8 2)) = true := by
  decide

/-! ### Witnesses: the hypotheses of each statement, met together -/

theorem witness_DecodedBitsMatchTheirRow :
    decode .cmd 0x1E01 = .ok (.encode ⟨.power, .cool, .low, 30⟩) ∧ decode .txFrame 0xFFFFFFFF = .ok (.transmit 0xFFFFFFFF) := by
  decide

theorem witness_RowsDecodeExactlyTheirWords :
    ((encode .modeFan).1 = .field .mode ∧ FrameField.mode ≠ .tempCode) ∧ (encode .trailer0).1 = .wave .trailer0 := by decide

theorem witness_CommandFieldsStandWhereTheSpecSays :
    ((0x1638 : Cmd16).extractLsb' 6 2 = 0 ∧ ((0x1638 : Cmd16).extractLsb' 1 3).toNat < 5) ∧
    (0x1641 : Cmd16).extractLsb' 6 2 ≠ 0 ∧
    ((0x160A : Cmd16).extractLsb' 6 2 = 0 ∧ 5 ≤ ((0x160A : Cmd16).extractLsb' 1 3).toNat) := by decide

theorem witness_EncodeGivesThePackedWord :
    (⟨.power, .cool, .low, 16⟩ : Command).admitted = true ∧ (⟨.power, .cool, .low, 30⟩ : Command).admitted = true ∧
    ({ State.reset with tempPolicy := .wrap } : State).tempPolicy = .wrap := by decide

theorem witness_TemperaturePrecondition :
    (State.reset.tempPolicy = .refuse ∧ (15 : BitVec 8).toNat < 16 ∧ 30 < (31 : BitVec 8).toNat) ∧
    ({ State.reset with tempPolicy := .wrap } : State).tempPolicy = .wrap := by decide

theorem witness_EncodeChangesOnlyCmd : completes (exec (.encode ⟨.setting, .water, .hi, 25⟩) (inPhase 0 7 1)) = true := by decide

theorem witness_FirstRefusalIsReported :
    (hosting (.encode 0x284E)).hostReady (.encode 0x284E) [] ∧ (0x284E : Cmd16).extractLsb' 6 2 ≠ 0 ∧
    ((0x280A : Cmd16).extractLsb' 6 2 = 0 ∧ 5 ≤ ((0x280A : Cmd16).extractLsb' 1 3).toNat) ∧
    ((0x0F01 : Cmd16).extractLsb' 6 2 = 0 ∧ ((0x0F01 : Cmd16).extractLsb' 1 3).toNat < 5 ∧ State.reset.tempPolicy = .refuse ∧
      ((0x0F01 : Cmd16).extractLsb' 8 8).toNat < 16 ∧ 30 < ((0x1F01 : Cmd16).extractLsb' 8 8).toNat) ∧
    ((0x1009 : Cmd16).extractLsb' 6 2 = 0 ∧ ((0x1009 : Cmd16).extractLsb' 1 3).toNat < 5 ∧
      16 ≤ ((0x1009 : Cmd16).extractLsb' 8 8).toNat ∧ ((0x1E09 : Cmd16).extractLsb' 8 8).toNat ≤ 30) :=
  ⟨⟨rfl, rfl, rfl⟩, by decide, by decide, by decide, by decide⟩

theorem witness_EncoderAndModulatorAreIndependent :
    State.reset.cmd = (inPhase 0 0 1).cmd ∧ State.reset.tempPolicy = (inPhase 0 0 1).tempPolicy ∧
    completes (exec .preamble (inPhase 0 0 1)) = true := by decide

theorem witness_FrameOfGivesAWord :
    frameOf .refuse 0x1631 = .ok 0x3839 ∧ frameOf .refuse 0x1E37 = .ok 0x7803 ∧
    (0x7803 : Word).extractLsb' 1 3 = 0b001 ∧ Mode.fan ≠ .water := by decide

theorem witness_TemperatureCodeFormula : 16 ≤ (16 : BitVec 8).toNat ∧ (30 : BitVec 8).toNat ≤ 30 := by decide

theorem witness_FieldIsolation :
    (⟨.power, .water, .hi, 16⟩ : Command).admitted = true ∧ (⟨.power, .water, .hi, 30⟩ : Command).admitted = true ∧
    Mode.cool ≠ .water := by decide

theorem witness_FieldRowsPlaceTheirValue : FieldRow (.temp 60) 0x1FE00 ((60 : TempCode).setWidth 32 <<< 9) := .temp 60

theorem witness_FrameRowsRebuildTheEncodedWord : (frameRows 0x7803).length = 6 := by decide

theorem witness_TransmitIsAcceptedWhenNotBusy : State.reset.platform.ready ∧ State.reset.busy = false :=
  ⟨⟨rfl, by decide⟩, rfl⟩

theorem witness_TransmitIsHeldWhileBusy :
    ((inPhase 0 0 1).platform.ready ∧ (inPhase 0 0 1).busy = true) ∧
    (let s : State := { State.reset with txReq := true }
     s.resetLevel = false ∧ s.platform.ready ∧ s.txReq = true ∧ s.busy = false ∧ s.seq = .idle) :=
  ⟨⟨⟨rfl, by decide⟩, rfl⟩, rfl, ⟨rfl, by decide⟩, rfl, rfl, rfl⟩

theorem witness_TransmitFrame :
    completes (exec (.transmit 7) State.reset) = true ∧ completes (exec (.transmit 7) (inPhase 0 0 1)) = true := by decide

theorem witness_SendTransmitsTheEncodedWord :
    let s : State := { State.reset with host := HostOp.send 0x1631 ++ [.idle] }
    s.platform.ready ∧ s.busy = false ∧ s.txReq = false ∧ s.resetIn = [] ∧ s.host = HostOp.send 0x1631 ++ [.idle] ∧
      frameOf s.tempPolicy 0x1631 = .ok 0x3839 :=
  ⟨⟨rfl, by decide⟩, rfl, rfl, rfl, rfl, by decide⟩

/-- One phase index of each element; with FR = 0x3839, bit 0 is 1 and bit 31 is 0. -/
theorem witness_ElementPhase :
    ElementPhase 0x3839 .preamble 1 ∧ ElementPhase 0x3839 .sym1 2 ∧ ElementPhase 0x3839 .sym0 205 ∧
    ElementPhase 0x3839 .trailer1 67 ∧ ElementPhase 0x3839 .trailer0 209 ∧ ElementPhase 0x3839 .stop 210 :=
  ⟨.preamble 0 1 (by decide) (by decide), .sym1 0 0 0 (by decide) (by decide) (by decide) (by decide),
    .sym0 2 31 1 (by decide) (by decide) (by decide) (by decide), .trailer1 0 1 (by decide) (by decide),
    .trailer0 2 1 (by decide) (by decide), .stop⟩

/-- The last poll before the end of a phase, for each duration. -/
theorem witness_PollBeforeTheEndOnlyReadsTheTimer :
    let s := inPhase 0x3839 210 3999
    s.seq = .run 210 ∧ s.fr = some 0x3839 ∧ s.t0 = some 1000 ∧ (txPhases 0x3839)[210]? = some ⟨true, 4000⟩ ∧
      (s.tick.timer - 1000).toNat < 4000 ∧ ((inPhase 0x3839 0 3049).tick.timer - 1000).toNat < 3050 ∧
      ((inPhase 0x3839 1 2899).tick.timer - 1000).toNat < 2900 ∧ ((inPhase 0x3839 2 949).tick.timer - 1000).toNat < 950 ∧
      (({ s with fr := none } : State).fr = none ∧ Instr.stop ≠ .sym1 ∧ Instr.stop ≠ .sym0) := by
  decide +kernel

/-- The first poll at the end of a phase, for each element that has a next phase. -/
theorem witness_PollAtTheEndBeginsTheNextPhase :
    (let s := inPhase 0x3839 209 950
     s.seq = .run 209 ∧ s.fr = some 0x3839 ∧ s.t0 = some 1000 ∧ (txPhases 0x3839)[209]? = some ⟨false, 950⟩ ∧
       (txPhases 0x3839)[210]? = some ⟨true, 4000⟩ ∧ 950 ≤ (s.tick.timer - 1000).toNat) ∧
    3050 ≤ ((inPhase 0x3839 0 3050).tick.timer - 1000).toNat ∧ 2900 ≤ ((inPhase 0x3839 1 2900).tick.timer - 1000).toNat ∧
    950 ≤ ((inPhase 0x3839 2 950).tick.timer - 1000).toNat ∧ 950 ≤ ((inPhase 0x3839 4 950).tick.timer - 1000).toNat ∧
    950 ≤ ((inPhase 0x3839 66 950).tick.timer - 1000).toNat ∧
    (txPhases 0x3839)[5]? = some ⟨false, 950⟩ ∧ (txPhases 0x3839)[67]? = some ⟨true, 950⟩ := by
  decide +kernel

theorem witness_StopFinishesTheTransmission :
    let s := inPhase 0x3839 210 4000
    s.seq = .run 210 ∧ s.fr = some 0x3839 ∧ s.t0 = some 1000 ∧ 4000 ≤ (s.tick.timer - 1000).toNat := by decide

theorem witness_ElementOutsideItsPhasesChangesNothing :
    Instr.stop ∈ [Instr.preamble, .sym1, .sym0, .trailer1, .trailer0, .stop] ∧ State.reset.seq = .idle ∧
    (inPhase 0 0 1).seq = .run 0 ∧ (inPhase 0 0 1).fr = some 0 ∧ ¬ ElementPhase 0 .stop 0 :=
  ⟨by decide, rfl, rfl, rfl, nofun⟩

theorem witness_TxFrameCannotReachARunningTransmission :
    Instr.sym0 ∈ [Instr.preamble, .sym1, .sym0, .trailer1, .trailer0, .stop] ∧
    completes (exec .sym0 (inPhase 0 2 950)) = true := by decide

/-- A block in its last phase meets the invariant. -/
theorem atStop_inv : atStop.Inv := by
  constructor
  · simp [atStop, inPhase]
  · intro k hk
    cases hk
    exact ⟨_, _, rfl, rfl, rfl⟩
  · intro h
    cases h

/-- A block in its last phase has its whole wave on the trace. -/
theorem atStop_waveOnTrace : atStop.WaveOnTrace := by
  intro k w hk hw
  cases hk
  cases hw
  decide +kernel

theorem witness_running_invariants : atStop.Inv ∧ atStop.WaveOnTrace ∧ completes (step atStop) = true :=
  ⟨atStop_inv, atStop_waveOnTrace, by decide +kernel⟩

theorem witness_EndedTransmissionEmittedEveryPhase :
    atStop.Inv ∧ atStop.WaveOnTrace ∧ atStop.fr = some 0x3839 ∧ atStop.seq ≠ .idle ∧ atStop.resetLevel = false ∧
    completes (step atStop) = true ∧ (after atStop (step atStop)).seq = .idle :=
  ⟨atStop_inv, atStop_waveOnTrace, by decide, by decide, by decide, by decide +kernel, by decide +kernel⟩

theorem witness_ResetAbortsATransmission :
    let s : State := { atStop with resetIn := [true] }
    s.Inv ∧ s.WaveOnTrace ∧ s.busy = true ∧ s.fr = some 0x3839 ∧ s.resetLevel = true :=
  ⟨⟨atStop_inv.busy_iff, atStop_inv.running, atStop_inv.dark⟩, atStop_waveOnTrace, rfl, rfl, rfl⟩

/-- A block in its first phase meets the invariant and the time invariants, with the end of the phase at the next poll. -/
theorem inPhase_onTime : (inPhase 0x3839 0 3050).Inv ∧ (inPhase 0x3839 0 3050).PhaseStarted ∧
    (inPhase 0x3839 0 3050).InOrder ∧ (inPhase 0x3839 0 3050).OnTime 4000 := by
  refine ⟨⟨by simp [inPhase], ?_, nofun⟩, ?_, by unfold State.InOrder; decide, ?_⟩
  · intro k hk
    cases hk
    exact ⟨_, _, rfl, rfl, rfl⟩
  · intro k hk
    cases hk
    exact ⟨1000, 1000, by decide⟩
  · intro k hk
    cases hk
    exact ⟨1000, 1000, by decide⟩

theorem witness_PhaseLastsAtLeastItsDuration :
    let s := inPhase 0x3839 0 3050
    s.Inv ∧ s.PhaseStarted ∧ s.InOrder ∧ s.seq = .run 0 ∧ s.resetLevel = false ∧ completes (step s) = true ∧
      (after s (step s)).seq ≠ .run 0 :=
  ⟨inPhase_onTime.1, inPhase_onTime.2.1, inPhase_onTime.2.2.1, by decide, by decide, by decide, by decide⟩

theorem witness_OvershootIsAtMostThreeGaps :
    let s := inPhase 0x3839 0 3050
    4000 < 2 ^ 63 ∧ s.Inv ∧ s.OnTime 4000 ∧ s.DrawsWithin 4000 3 ∧ completes (step s) = true ∧
      (after s (step s)).seq ≠ .run 0 :=
  ⟨by decide, inPhase_onTime.1, inPhase_onTime.2.2.2, by unfold State.DrawsWithin; decide, by decide, by decide⟩

theorem witness_TransmissionRunsToCompletion :
    let s : State := { State.reset with host := [.transmit 0x3839, .idle], resetIn := [false],
                                        timeIn := List.replicate 217000 1 }
    s.platform.ready ∧ s.busy = false ∧ s.seq = .idle ∧ s.txReq = false ∧ (∀ b ∈ s.resetIn, b = false) ∧
      s.host = .transmit 0x3839 :: [.idle] ∧ (∀ op ∈ [HostOp.idle], op = .idle) ∧ s.DrawsWithin (2 ^ 63 - 1) 217000 ∧
      217000 ≤ s.moves 217000 ∧ ∀ i < 217000, s.drawAt i ≠ 0 := by
  intro s
  have one : ∀ i < 217000, s.drawAt i = 1 := fun i hi =>
    State.drawAt_listed (by rw [show s.timeIn = List.replicate 217000 1 from rfl, List.getElem?_replicate_of_lt hi])
  have all : s.moves 217000 = 217000 := by
    rw [State.moves, List.countP_eq_length.2, List.length_range]
    intro i hi
    simp [one i (List.mem_range.1 hi)]
  exact ⟨⟨rfl, by decide⟩, rfl, rfl, rfl, by decide, rfl, by decide, fun i hi => by rw [one i hi]; decide, all.ge,
    fun i hi => by rw [one i hi]; decide⟩

theorem witness_ElapsedTimeIsExactAcrossAWrap :
    2 ^ 64 - 100 ≤ 2 ^ 64 + 850 ∧ 2 ^ 64 + 850 - (2 ^ 64 - 100) < 2 ^ 64 := by decide

theorem witness_ResetTakesEffectInAnyState : ({ atStop with resetIn := [true] } : State).resetLevel = true := rfl

theorem witness_StepRunsTheDecodedInstruction :
    (hosting (.transmit 5)).resetLevel = false ∧
    (hosting (.transmit 5)).nextResetIn.fetch = .word .txFrame 5 State.reset ∧ decode .txFrame 5 = .ok (.transmit 5) := by
  decide

theorem witness_StepTakesTheHostOperation :
    ((hosting (.encode 0x1631)).hostReady (.encode 0x1631) [] ∧ decodeCmd 0x1631 = .ok ⟨.power, .cool, .auto, 22⟩) ∧
    (hosting (.transmit 5)).hostReady (.transmit 5) [] ∧
    (({ hosting .transmitFrameOut with cmd := 0x1631 } : State).hostReady .transmitFrameOut [] ∧
      ({ hosting .transmitFrameOut with cmd := 0x1631 } : State).frameOut = .ok 0x3839) ∧
    ((hosting .transmitFrameOut).hostReady .transmitFrameOut [] ∧
      (hosting .transmitFrameOut).frameOut = .error .refTempRange) ∧
    ((hosting (.setField .mode 8)).hostReady (.setField .mode 8) [] ∧ decode (.field .mode) 8 = .ok .modeCool) ∧
    ((hosting (.configureCarrier ⟨37900, 40⟩)).hostReady (.configureCarrier ⟨37900, 40⟩) [] ∧
      (hosting (.configureCarrier ⟨37900, 40⟩)).busy = false) ∧
    (hosting (.setField .mode 0)).hostReady (.setField .mode 0) [] ∧
    (hosting (.driveTxFrame 0xE)).hostReady (.driveTxFrame 0xE) [] ∧
    ((hosting (.foreignSetCarrier true)).hostReady (.foreignSetCarrier true) [] ∧
      (hosting (.foreignSetCarrier true)).busy = false) ∧
    ((hosting .idle).hostReady .idle [] ∧ (hosting .idle).seq = .idle) :=
  ⟨⟨⟨rfl, rfl, rfl⟩, by decide⟩, ⟨rfl, rfl, rfl⟩, ⟨⟨rfl, rfl, rfl⟩, by decide⟩, ⟨⟨rfl, rfl, rfl⟩, by decide⟩,
    ⟨⟨rfl, rfl, rfl⟩, by decide⟩, ⟨⟨rfl, rfl, rfl⟩, rfl⟩, ⟨rfl, rfl, rfl⟩, ⟨rfl, rfl, rfl⟩, ⟨⟨rfl, rfl, rfl⟩, rfl⟩,
    ⟨⟨rfl, rfl, rfl⟩, rfl⟩⟩

theorem witness_StepRunsTheElementOfThePhase :
    let s := inPhase 0x3839 209 950
    (s.resetLevel = false ∧ s.seq = .run 209 ∧ s.fr = some 0x3839 ∧ ElementPhase 0x3839 .trailer0 209 ∧ s.host = []) ∧
    (({ s with host := [.idle] } : State).txReq = false ∧ ({ s with host := [.idle] } : State).host = .idle :: []) ∧
    ({ s with txReq := true } : State).txReq = true :=
  ⟨⟨rfl, rfl, rfl, .trailer0 2 1 (by decide) (by decide), rfl⟩, ⟨rfl, rfl⟩, rfl⟩

theorem witness_ForeignAgentWhileBusyIsRefused :
    let s : State := { inPhase 0 0 1 with host := [.foreignSetCarrier true] }
    let u : State := { inPhase 0 0 1 with host := [.configureCarrier ⟨38000, 40⟩] }
    s.busy = true ∧ s.hostReady (.foreignSetCarrier true) [] ∧ u.hostReady (.configureCarrier ⟨38000, 40⟩) [] :=
  ⟨rfl, ⟨rfl, rfl, rfl⟩, ⟨rfl, rfl, rfl⟩⟩

theorem witness_IdleBlockWaits :
    State.reset.resetLevel = false ∧ State.reset.seq = .idle ∧ State.reset.txReq = false ∧ State.reset.host = [] ∧
    (hosting .idle).resetLevel = false ∧ (hosting .idle).seq = .idle ∧ (hosting .idle).txReq = false ∧
    (hosting .idle).host = .idle :: [] := by decide

theorem witness_TransmitIsSelfContained :
    State.reset.busy = false ∧ completes (exec (.transmit 7) State.reset) = true := by decide

theorem witness_TransmitOutsideItsPremisesIsRefused :
    ({ State.reset with platform := ⟨false, none⟩ } : State).platform.present = false ∧
    (({ State.reset with platform := ⟨true, none⟩ } : State).platform.present = true ∧
      ({ State.reset with platform := ⟨true, none⟩ } : State).platform.carrierConfig = none) := by decide

/-- The last bit of the last repetition, at the phases the statement names. -/
theorem witness_DataBitsGoOutLeastSignificantFirst :
    (2 < 3 ∧ 31 < 32) ∧ (txPhases 0x80000000)[204]? = some ⟨false, 950⟩ ∧ (txPhases 0x80000000)[205]? = some ⟨true, 950⟩ := by
  decide +kernel

theorem witness_PreambleTrailerAndStopPhases : 2 < 3 ∧ (txPhases 0)[140]? = some ⟨true, 3050⟩ ∧
    (txPhases 0)[209]? = some ⟨false, 950⟩ := by decide +kernel

theorem witness_TransmissionPhasesByIndex :
    ((inPhase 0 209 1).seq = .run 209 ∧ (209 : Fin 211).val < 210) ∧
    ((inPhase 0 210 1).seq = .run 210 ∧ (210 : Fin 211).val = 210) := by decide

theorem witness_FanCodesAndFunctionBit : frameOf .refuse 0x1631 = .ok 0x3839 ∧ frameOf .refuse 0x1926 = .ok 0x5002 := by decide

theorem witness_RepetitionsAreIdentical : 139 < 140 ∧ (txPhases 0)[139]? = (txPhases 0)[209]? := by decide +kernel

theorem witness_NominalSchedule : (2 < 3 ∧ 31 < 32) ∧ nominalStart 0 204 = 205950 := by decide +kernel

theorem witness_EncodedModeBitsAreAssigned : frameOf .refuse 0x1926 = .ok 0x5002 := by decide

theorem witness_EncodedReservedBitsAreZero : frameOf .wrap 0x0001 = .ok 0x18809 := by decide

theorem witness_WaterForcesLowFan : (Mode.fan ≠ .water) ∧ frameOf .refuse 0x1E37 = .ok 0x7803 ∧
    (0x7803 : Word).extractLsb' 1 3 = 0b001 := by decide

theorem witness_StepKeepsTheBlockInvariant : atStop.Inv ∧ completes (step atStop) = true :=
  ⟨atStop_inv, by decide +kernel⟩

theorem witness_StepKeepsTheWaveOnTheTrace : atStop.Inv ∧ atStop.WaveOnTrace ∧ completes (step atStop) = true :=
  ⟨atStop_inv, atStop_waveOnTrace, by decide +kernel⟩

theorem witness_RunningTransmissionKeepsFrAndGoesOn :
    atStop.Inv ∧ atStop.seq = .run 210 ∧ atStop.resetLevel = false ∧ completes (step atStop) = true ∧
    (inPhase 0x3839 0 3050).Inv ∧ (inPhase 0x3839 0 3050).seq = .run 0 ∧ (inPhase 0x3839 0 3050).resetLevel = false ∧
    (after State.reset (step (inPhase 0x3839 0 3050))).seq = .run 1 :=
  ⟨atStop_inv, by decide, by decide, by decide +kernel, inPhase_onTime.1, by decide, by decide, by decide⟩

theorem witness_NoStepFaults : atStop.Inv ∧ exec .sym0 { inPhase 0 2 1 with fr := none } = .fault .frNoValue ∧
    exec .stop { inPhase 0 210 1 with t0 := none } = .fault .t0NoValue := ⟨atStop_inv, rfl, rfl⟩

theorem witness_ClockIsMonotonicAndFair :
    (inPhase 0x3839 0 3050).InOrder ∧ completes (step (inPhase 0x3839 0 3050)) = true :=
  ⟨inPhase_onTime.2.2.1, by decide⟩

theorem witness_StepKeepsPhaseStarted : (inPhase 0x3839 0 3050).Inv ∧ (inPhase 0x3839 0 3050).PhaseStarted ∧
    completes (step (inPhase 0x3839 0 3050)) = true :=
  ⟨inPhase_onTime.1, inPhase_onTime.2.1, by decide⟩

end Sys2Proof.Tests
end

/-! ### What reset leaves -/

namespace Sys2Proof.Machine

/-- A read of FR faults exactly while FR holds no value (10_state.md R28). -/
theorem State.readFR_frNoValue_iff (s : State) : s.readFR = .error .frNoValue ↔ s.fr = none := by
  cases hfr : s.fr <;> simp [State.readFR, hfr]

/-- A read of T0 faults exactly while T0 holds no value (10_state.md R28). -/
theorem State.readT0_t0NoValue_iff (s : State) : s.readT0 = .error .t0NoValue ↔ s.t0 = none := by
  cases ht0 : s.t0 <;> simp [State.readT0, ht0]

/-- REP holds no value exactly in IDLE (10_state.md R28). -/
theorem State.readRep_repNoValue_iff (s : State) : s.readRep = .error .repNoValue ↔ s.seq = .idle := by
  cases hseq : s.seq <;> simp [State.readRep, hseq]

/-- Settles O55: the fields are the literal ones of `State.reset`, and each of the three reads faults because the field that
it rests on holds no value. -/
theorem resetValues : Obligations.ResetValues := by
  have hseq : State.reset.seq = .idle := rfl
  have hfr : State.reset.fr = none := rfl
  have ht0 : State.reset.t0 = none := rfl
  exact ⟨hseq, rfl, rfl, rfl, hfr, ht0, (State.readFR_frNoValue_iff _).2 hfr, (State.readT0_t0NoValue_iff _).2 ht0,
    (State.readRep_repNoValue_iff _).2 hseq⟩

end Sys2Proof.Machine

/-! ### The phases of a transmission by index -/

namespace Sys2Proof.Machine

/-- A run of symbols has two phases per symbol (41_modulator.md R84). -/
theorem length_flatMap_sym {α : Type} (b : α → Bool) (l : List α) :
    (l.flatMap fun a => sym (b a)).length = 2 * l.length := by
  simp [List.length_flatMap, sym, Nat.mul_comm]

/-- Half `h` of symbol `i` of a run of symbols stands at `2i + h` (41_modulator.md R84). -/
theorem getElem?_flatMap_sym {α : Type} (b : α → Bool) (l : List α) (i : Nat) {h : Nat} (hh : h < 2) :
    (l.flatMap fun a => sym (b a))[2 * i + h]? = l[i]?.bind fun a => (sym (b a))[h]? := by
  induction l generalizing i with
  | nil => rfl
  | cons a l ih =>
    cases i with
    | zero => simp [List.getElem?_append_left (show h < (sym (b a)).length from hh)]
    | succ i =>
      have hskip : 2 * (i + 1) + h = (sym (b a)).length + (2 * i + h) := by simp only [sym, List.length]; omega
      rw [List.flatMap_cons, hskip, List.getElem?_append_right (Nat.le_add_right _ _), Nat.add_sub_cancel_left, ih,
        List.getElem?_cons_succ]

/-- A repetition has 70 phases: preamble 2, data 64, trailer 4 (41_modulator.md R86). -/
@[simp] theorem length_framePhases (w : Word) : (framePhases w).length = 70 := by
  simp only [framePhases, List.length_append, length_flatMap_sym, List.length_range]
  rfl

/-- Phase `j` of repetition `r` is phase `j` of the frame (41_modulator.md R87). -/
theorem getElem?_txPhases (w : Word) {r j : Nat} (hr : r < 3) (hj : j < 70) :
    (txPhases w)[70 * r + j]? = (framePhases w)[j]? := by
  simp only [txPhases, List.getElem?_append, List.length_append, length_framePhases]
  obtain rfl | rfl | rfl : r = 0 ∨ r = 1 ∨ r = 2 := by omega
  · rw [if_pos (by omega), if_pos (by omega), if_pos (by omega), Nat.mul_zero, Nat.zero_add]
  · rw [if_pos (by omega), if_pos (by omega), if_neg (by omega), Nat.mul_one, Nat.add_sub_cancel_left]
  · rw [if_pos (by omega), if_neg (by omega), Nat.add_sub_cancel_left]

/-- Half `h` of the symbol of bit `i` stands `2i + h` phases behind the two of the preamble (41_modulator.md R86). -/
theorem getElem?_framePhases_bit (w : Word) {i h : Nat} (hi : i < 32) (hh : h < 2) :
    (framePhases w)[2 + (2 * i + h)]? = (sym (w.getLsbD i))[h]? := by
  have hdata : 2 * i + h < ((List.range 32).flatMap fun i => sym (w.getLsbD i)).length := by
    rw [length_flatMap_sym, List.length_range]; omega
  calc (framePhases w)[2 + (2 * i + h)]?
    _ = ((List.range 32).flatMap fun i => sym (w.getLsbD i))[2 * i + h]? := by
      rw [framePhases, List.append_assoc, List.append_assoc, List.getElem?_append_right (Nat.le_add_right 2 _),
        List.length_cons, List.length_singleton, Nat.add_sub_cancel_left, List.getElem?_append_left hdata]
    _ = (sym (w.getLsbD i))[h]? := by
      rw [getElem?_flatMap_sym _ _ _ hh, List.getElem?_range hi, Option.bind_some]

/-- The symbol of bit `i` in repetition `r` of a transmission (41_modulator.md R86, R87). -/
theorem getElem?_txPhases_bit (w : Word) {r i h : Nat} (hr : r < 3) (hi : i < 32) (hh : h < 2) :
    (txPhases w)[70 * r + (2 + (2 * i + h))]? = (sym (w.getLsbD i))[h]? := by
  rw [getElem?_txPhases w hr (by omega), getElem?_framePhases_bit w hi hh]

/-- Settles O30: both clauses are the symbol of bit `i`, whose halves are the bit's complement and then the bit. -/
theorem dataBitsGoOutLeastSignificantFirst : Obligations.DataBitsGoOutLeastSignificantFirst := by
  intro w r i hr hi
  constructor
  · rw [show 70 * r + 2 + 2 * i = 70 * r + (2 + (2 * i + 0)) by omega, getElem?_txPhases_bit w hr hi (by decide)]
    rfl
  · rw [show 70 * r + 3 + 2 * i = 70 * r + (2 + (2 * i + 1)) by omega, getElem?_txPhases_bit w hr hi (by decide)]
    rfl

end Sys2Proof.Machine

/-! ### The phases that no data bit decides -/

namespace Sys2Proof.Machine

/-- The four phases of the trailer stand behind the preamble and the data (41_modulator.md R86). -/
theorem getElem?_framePhases_trailer (w : Word) (j : Nat) : (framePhases w)[66 + j]? = (sym true ++ sym false)[j]? := by
  have hlen : (([⟨true, tPreOn⟩, ⟨false, tPreOff⟩] : List Phase) ++
      (List.range 32).flatMap fun i => sym (w.getLsbD i)).length = 66 := by
    rw [List.length_append, length_flatMap_sym, List.length_range]; rfl
  rw [framePhases, List.append_assoc, List.getElem?_append_right (hlen ▸ Nat.le_add_right 66 j), hlen,
    Nat.add_sub_cancel_left]

/-- The stop pulse is the last phase of a transmission (41_modulator.md R87). -/
theorem getElem?_txPhases_stop (w : Word) : (txPhases w)[210]? = some ⟨true, tStop⟩ := by
  have hlen : (framePhases w ++ framePhases w ++ framePhases w).length = 210 := by simp
  rw [txPhases, List.getElem?_append_right hlen.le, hlen]
  rfl

/-- Phase `j` of the trailer in repetition `r` of a transmission (41_modulator.md R91). -/
theorem getElem?_txPhases_trailer (w : Word) {r j : Nat} (hr : r < 3) (hj : j < 4) :
    (txPhases w)[70 * r + (66 + j)]? = (sym true ++ sym false)[j]? := by
  rw [getElem?_txPhases w hr (by omega), getElem?_framePhases_trailer]

/-- Settles O31: the preamble is the head of the frame's phases, the trailer their last four, and no bit of the word is in
either. -/
theorem preambleTrailerAndStopPhases : Obligations.PreambleTrailerAndStopPhases := by
  intro w
  refine ⟨getElem?_txPhases_stop w, fun r hr => ⟨?preOn, ?preOff, ?trailer⟩⟩
  case preOn => exact getElem?_txPhases w hr (j := 0) (by decide)
  case preOff => exact getElem?_txPhases w hr (j := 1) (by decide)
  case trailer =>
    have htrailer {j : Nat} := getElem?_txPhases_trailer w (j := j) hr
    exact ⟨htrailer (j := 0) (by decide), htrailer (j := 1) (by decide), htrailer (j := 2) (by decide),
      htrailer (j := 3) (by decide)⟩

end Sys2Proof.Machine

/-! ### The fields and the selectors of a CMD16 value -/

namespace Sys2Proof

/-- `fn_sel` of the function that a selector names is that selector (30_encoding.md R47). -/
@[simp] theorem selOfFunction_functionOfSel (b : BitVec 1) : selOfFunction (functionOfSel b) = b := by
  revert b; decide

/-- `fan_sel` of the fan speed that a selector names is that selector (30_encoding.md R50). -/
@[simp] theorem selOfFan_fanOfSel (f : BitVec 2) : selOfFan (fanOfSel f) = f := by
  revert f; decide

/-- A mode selector names the one mode whose `mode_sel` it is (30_encoding.md R48). -/
theorem modeOfSel_eq_some_iff (b : BitVec 3) (m : Mode) : modeOfSel b = some m ↔ selOfMode m = b := by
  cases m <;> revert b <;> decide

/-- A mode selector names no mode exactly from 5 on (30_encoding.md R48). -/
theorem modeOfSel_eq_none_iff (b : BitVec 3) : modeOfSel b = none ↔ 5 ≤ b.toNat := by
  revert b; decide

/-- Set reserved bits are rejected before the mode selector is looked at (40_encoder.md R80). -/
theorem decodeCmd_of_reserved {v : Cmd16} (h : v.extractLsb' 6 2 ≠ 0) : decodeCmd v = .error .cmdReserved := by
  rw [decodeCmd, if_pos h]

/-- A mode selector that names no mode is rejected (30_encoding.md R48, 40_encoder.md R80). -/
theorem decodeCmd_of_no_mode {v : Cmd16} (h : v.extractLsb' 6 2 = 0) (hm : modeOfSel (v.extractLsb' 1 3) = none) :
    decodeCmd v = .error .modeSelector := by
  rw [decodeCmd, if_neg (not_not_intro h), hm]

/-- The Command of a CMD16 value whose mode selector names a mode (30_encoding.md R46). -/
theorem decodeCmd_of_mode {v : Cmd16} {m : Mode} (h : v.extractLsb' 6 2 = 0)
    (hm : modeOfSel (v.extractLsb' 1 3) = some m) :
    decodeCmd v = .ok ⟨functionOfSel (v.extractLsb' 0 1), m, fanOfSel (v.extractLsb' 4 2), v.extractLsb' 8 8⟩ := by
  rw [decodeCmd, if_neg (not_not_intro h), hm]

end Sys2Proof

namespace Sys2Proof.Machine

/-- Settles O5: the reserved bits and then the mode selector decide which of the three outcomes the decoder has, and each
selector is that of what it names. -/
theorem commandFieldsStandWhereTheSpecSays : Obligations.CommandFieldsStandWhereTheSpecSays := by
  refine ⟨fun v hrsvd hmode => ?command, fun v hrsvd => decodeCmd_of_reserved hrsvd,
    fun v hrsvd hmode => decodeCmd_of_no_mode hrsvd ((modeOfSel_eq_none_iff _).2 hmode), by decide, by decide⟩
  have hnamed : modeOfSel (v.extractLsb' 1 3) ≠ none := mt (modeOfSel_eq_none_iff _).1 (Nat.not_le.2 hmode)
  obtain ⟨m, hm⟩ := Option.ne_none_iff_exists'.1 hnamed
  exact ⟨_, decodeCmd_of_mode hrsvd hm, selOfFunction_functionOfSel _, (modeOfSel_eq_some_iff _ _).1 hm,
    selOfFan_fanOfSel _, rfl⟩

end Sys2Proof.Machine

/-! ### The words that ENCODE gives -/

namespace Sys2Proof.Machine

/-- ENCODE gives a command's word exactly where TEMP_POLICY lets its temperature pass (40_encoder.md R79). -/
theorem encodeCommand_ok_iff (p : TempPolicy) (c : Command) (w : Word) :
    encodeCommand p c = .ok w ↔ (p = .wrap ∨ c.admitted = true) ∧ w = commandWord c := by
  cases p with
  | refuse => cases hc : c.admitted <;> simp [encodeCommand, hc, eq_comm (a := w)]
  | wrap => simp [encodeCommand, eq_comm (a := w)]

/-- A word on FRAME_OUT is the word of the Command on CMD, which TEMP_POLICY lets pass (40_encoder.md R69, R80). -/
theorem frameOf_ok_iff (p : TempPolicy) (v : Cmd16) (w : Word) :
    frameOf p v = .ok w ↔ ∃ c, decodeCmd v = .ok c ∧ (p = .wrap ∨ c.admitted = true) ∧ w = commandWord c := by
  cases hv : decodeCmd v <;> simp [frameOf, hv, encodeCommand_ok_iff]

/-- No operand of `pack` reaches a reserved bit of the word (40_encoder.md R75). -/
theorem getLsbD_pack_reserved (f : BitVec 1) (m : BitVec 3) (a : BitVec 2) (c : TempCode) {i : Nat}
    (h : 6 ≤ i ∧ i < 9 ∨ 17 ≤ i) : (pack f m a c).getLsbD i = false := by
  simp only [pack, BitVec.getLsbD_or, BitVec.getLsbD_shiftLeft, BitVec.getLsbD_setWidth]
  have hf : f.getLsbD i = false := BitVec.getLsbD_of_ge f i (by omega)
  have hm : m.getLsbD (i - 1) = false := BitVec.getLsbD_of_ge m _ (by omega)
  have ha : a.getLsbD (i - 4) = false := BitVec.getLsbD_of_ge a _ (by omega)
  have hc : i < 9 ∨ c.getLsbD (i - 9) = false := h.imp And.right fun h => BitVec.getLsbD_of_ge c _ (by omega)
  obtain hc | hc := hc <;> simp [hf, hm, ha, hc]

/-- `pack` leaves bits 8:6 at 0 (40_encoder.md R75, 30_encoding.md R54). -/
theorem pack_reserved8to6 (f : BitVec 1) (m : BitVec 3) (a : BitVec 2) (c : TempCode) :
    (pack f m a c).extractLsb' 6 3 = 0 := by
  ext i hi
  simpa using getLsbD_pack_reserved f m a c (i := 6 + i) (by omega)

/-- `pack` leaves bits 31:17 at 0 (40_encoder.md R75, 30_encoding.md R55). -/
theorem pack_reserved31to17 (f : BitVec 1) (m : BitVec 3) (a : BitVec 2) (c : TempCode) :
    (pack f m a c).extractLsb' 17 15 = 0 := by
  ext i hi
  simpa using getLsbD_pack_reserved f m a c (i := 17 + i) (by omega)

/-- Settles O15: a word that ENCODE gives is packed, and `pack` leaves the reserved bits at 0. -/
theorem encodedReservedBitsAreZero : Obligations.EncodedReservedBitsAreZero := by
  intro p v w h
  obtain ⟨c, -, -, rfl⟩ := (frameOf_ok_iff p v w).1 h
  exact ⟨pack_reserved8to6 _ _ _ _, pack_reserved31to17 _ _ _ _⟩

end Sys2Proof.Machine

/-! ### Reading a field back out of packed bits -/

namespace Sys2Proof

/-- The `w`-bit value with `x` at bit `o` and 0 elsewhere: what `pack` and `packCmd` or together (`pack_eq_placeAt`,
`packCmd_eq_placeAt`). -/
def placeAt (w o : Nat) {n : Nat} (x : BitVec n) : BitVec w := x.setWidth w <<< o

/-- A field that fits reads back where it was placed. -/
theorem extractLsb'_placeAt_same {w o n : Nat} (x : BitVec n) (h : o + n ≤ w) : (placeAt w o x).extractLsb' o n = x := by
  ext i hi
  have hfits : o + i < w := by omega
  simp [placeAt, hi, hfits]

/-- A field placed beside the bits that are read leaves them 0. -/
theorem extractLsb'_placeAt_disjoint {w o n : Nat} (x : BitVec n) {p k : Nat} (h : p + k ≤ o ∨ o + n ≤ p) :
    (placeAt w o x).extractLsb' p k = 0 := by
  ext i hi
  obtain hbelow | habove := h
  · have : p + i < o := by omega
    simp [placeAt, this]
  · have : x.getLsbD (p + i - o) = false := BitVec.getLsbD_of_ge x _ (by omega)
    simp [placeAt, this]

end Sys2Proof

/-! ### A Command on the CMD port and back -/

namespace Sys2Proof

/-- What a CMD16 value that decodes is made of (30_encoding.md R46). -/
theorem decodeCmd_ok_iff (v : Cmd16) (c : Command) :
    decodeCmd v = .ok c ↔ v.extractLsb' 6 2 = 0 ∧ modeOfSel (v.extractLsb' 1 3) = some c.mode ∧
      c = ⟨functionOfSel (v.extractLsb' 0 1), c.mode, fanOfSel (v.extractLsb' 4 2), v.extractLsb' 8 8⟩ := by
  by_cases hrsvd : v.extractLsb' 6 2 = 0
  · cases hmode : modeOfSel (v.extractLsb' 1 3) with
    | none => simp [decodeCmd_of_no_mode hrsvd hmode]
    | some m =>
      rw [decodeCmd_of_mode hrsvd hmode]
      constructor
      · rintro ⟨⟩
        exact ⟨hrsvd, rfl, rfl⟩
      · rintro ⟨-, hm, hc⟩
        rw [hc, Option.some.inj hm]
  · exact iff_of_false (by simp [decodeCmd_of_reserved hrsvd]) fun h => hrsvd h.1

/-- A function's `fn_sel` names it (30_encoding.md R47). -/
@[simp] theorem functionOfSel_selOfFunction (f : CmdFunction) : functionOfSel (selOfFunction f) = f := by
  cases f <;> rfl

/-- A fan speed's `fan_sel` names it (30_encoding.md R50). -/
@[simp] theorem fanOfSel_selOfFan (f : FanSpeed) : fanOfSel (selOfFan f) = f := by
  cases f <;> rfl

theorem packCmd_eq_placeAt (c : Command) : packCmd c = placeAt 16 0 (selOfFunction c.function) |||
    placeAt 16 1 (selOfMode c.mode) ||| placeAt 16 4 (selOfFan c.fan) ||| placeAt 16 8 c.temp := by
  simp [packCmd, placeAt]

/-- Each selector of a Command, and its temperature, in its bits of CMD16, and 0 in bits 7:6 (30_encoding.md R46). -/
theorem extractLsb'_packCmd (c : Command) :
    (packCmd c).extractLsb' 0 1 = selOfFunction c.function ∧ (packCmd c).extractLsb' 1 3 = selOfMode c.mode ∧
    (packCmd c).extractLsb' 4 2 = selOfFan c.fan ∧ (packCmd c).extractLsb' 6 2 = 0 ∧
    (packCmd c).extractLsb' 8 8 = c.temp := by
  simp [packCmd_eq_placeAt, BitVec.extractLsb'_or, extractLsb'_placeAt_same, extractLsb'_placeAt_disjoint]

/-- The decoder reads a Command back from its CMD16 value (30_encoding.md R46). -/
@[simp] theorem decodeCmd_packCmd (c : Command) : decodeCmd (packCmd c) = .ok c := by
  obtain ⟨hfunction, hmode, hfan, hrsvd, htemp⟩ := extractLsb'_packCmd c
  refine (decodeCmd_ok_iff _ _).2 ⟨hrsvd, (modeOfSel_eq_some_iff _ _).2 hmode.symm, ?_⟩
  rw [hfunction, hfan, htemp, functionOfSel_selOfFunction, fanOfSel_selOfFan]

end Sys2Proof

/-! ### The fields of the words that ENCODE gives -/

namespace Sys2Proof.Machine

theorem pack_eq_placeAt (f : BitVec 1) (m : BitVec 3) (a : BitVec 2) (c : TempCode) :
    pack f m a c = placeAt 32 0 f ||| placeAt 32 1 m ||| placeAt 32 4 a ||| placeAt 32 9 c := by
  simp [pack, placeAt]

/-- Each operand of `pack` in its field of the word (40_encoder.md R75, 30_encoding.md R53). -/
theorem extractLsb'_pack (f : BitVec 1) (m : BitVec 3) (a : BitVec 2) (c : TempCode) :
    (pack f m a c).extractLsb' 0 1 = f ∧ (pack f m a c).extractLsb' 1 3 = m ∧
    (pack f m a c).extractLsb' 4 2 = a ∧ (pack f m a c).extractLsb' 9 8 = c := by
  simp [pack_eq_placeAt, BitVec.extractLsb'_or, extractLsb'_placeAt_same, extractLsb'_placeAt_disjoint]

/-- Settles O14: `pack` ors together operands placed side by side, so each field reads its operand back. -/
theorem packPlacesEveryField : Obligations.PackPlacesEveryField := by
  intro f m a c
  obtain ⟨hf, hm, ha, hc⟩ := extractLsb'_pack f m a c
  exact ⟨rfl, hf, hm, ha, pack_reserved8to6 f m a c, hc, pack_reserved31to17 f m a c⟩

/-- The fields of a command's word are the codes of its parts, the fan normalised (40_encoder.md R69). -/
theorem extractLsb'_commandWord (c : Command) :
    (commandWord c).extractLsb' 0 1 = functionBit c.function ∧ (commandWord c).extractLsb' 1 3 = modeCode c.mode ∧
    (commandWord c).extractLsb' 4 2 = fanCode (normaliseFan c.mode c.fan) ∧
    (commandWord c).extractLsb' 9 8 = tempCode c.temp :=
  extractLsb'_pack _ _ _ _

/-- The range of `mode_code` (40_encoder.md R70). -/
theorem modeCode_mem_codes (m : Mode) :
    modeCode m = 0b100 ∨ modeCode m = 0b010 ∨ modeCode m = 0b110 ∨ modeCode m = 0b001 ∨ modeCode m = 0b101 := by
  cases m <;> decide

/-- Settles O12: the mode bits of a command's word are `mode_code` of its mode, whose range is the five codes. -/
theorem encodedModeBitsAreAssigned : Obligations.EncodedModeBitsAreAssigned := by
  have hword (c : Command) : (commandWord c).extractLsb' 1 3 = modeCode c.mode := by
    obtain ⟨-, hmode, -⟩ := extractLsb'_commandWord c
    exact hmode
  refine ⟨⟨rfl, rfl, rfl, rfl, rfl⟩, hword, fun p v w h => ?_⟩
  obtain ⟨c, -, -, rfl⟩ := (frameOf_ok_iff p v w).1 h
  rw [hword]
  exact modeCode_mem_codes c.mode

/-- WATER alone has the code 001 (40_encoder.md R70). -/
theorem modeCode_eq_water_iff (m : Mode) : modeCode m = 0b001 ↔ m = .water := by
  cases m <;> decide

@[simp] theorem normaliseFan_water (f : FanSpeed) : normaliseFan .water f = .low := rfl

theorem normaliseFan_of_ne_water {m : Mode} (h : m ≠ .water) (f : FanSpeed) : normaliseFan m f = f := by
  cases m with
  | water => exact absurd rfl h
  | cool | heat | recycle | fan => rfl

/-- Normalising twice is normalising once (40_encoder.md R72). -/
theorem normaliseFan_idem (m : Mode) (f : FanSpeed) : normaliseFan m (normaliseFan m f) = normaliseFan m f := by
  by_cases h : m = .water
  · rw [h, normaliseFan_water, normaliseFan_water]
  · rw [normaliseFan_of_ne_water h]

/-- Settles O16: a word with WATER's code is the word of a WATER command, whose fan `normalise_fan` has forced to LOW. -/
theorem waterForcesLowFan : Obligations.WaterForcesLowFan := by
  refine ⟨normaliseFan_water, fun m f h => normaliseFan_of_ne_water h f, normaliseFan_idem, fun p v w h hwater => ?_⟩
  obtain ⟨c, -, -, rfl⟩ := (frameOf_ok_iff p v w).1 h
  obtain ⟨-, hmode, hfan, -⟩ := extractLsb'_commandWord c
  have hc : c.mode = .water := (modeCode_eq_water_iff c.mode).1 (hmode ▸ hwater)
  rw [hfan, hc, normaliseFan_water]
  rfl

/-- `fn_sel` and the frame's function bit have one table, so decoding and encoding leave the bit unchanged
(40_encoder.md R73). -/
theorem functionBit_functionOfSel (b : BitVec 1) : functionBit (functionOfSel b) = b := by
  revert b; decide

/-- Settles O11: the function bit of a word is that of the function which CMD[0] names, and so CMD[0]. -/
theorem fanCodesAndFunctionBit : Obligations.FanCodesAndFunctionBit := by
  refine ⟨⟨rfl, rfl, rfl, rfl⟩, ⟨rfl, rfl⟩, functionBit_functionOfSel, fun p v w h => ?_⟩
  obtain ⟨c, hdecode, -, rfl⟩ := (frameOf_ok_iff p v w).1 h
  obtain ⟨-, -, hc⟩ := (decodeCmd_ok_iff v c).1 hdecode
  have hfunction : c.function = functionOfSel (v.extractLsb' 0 1) := congrArg Command.function hc
  obtain ⟨hbit, -⟩ := extractLsb'_commandWord c
  rw [hbit, hfunction, functionBit_functionOfSel]

end Sys2Proof.Machine

/-! ### The temperature code and its precondition -/

namespace Sys2Proof.Machine

/-- `temp_code` on unbounded integers (40_encoder.md R74). -/
theorem toNat_tempCode (t : BitVec 8) : ((tempCode t).toNat : Int) = (4 * (t.toNat : Int) - 60) % 256 := by
  rw [tempCode, BitVec.toNat_ofInt]
  omega

/-- Settles O13: from 16 to 30 the integer `4·t − 60` lies below 256, so that the remainder is the number itself. -/
theorem temperatureCodeFormula : Obligations.TemperatureCodeFormula := by
  intro t
  have hcode := toNat_tempCode t
  refine ⟨hcode, fun hlow hhigh => ?_⟩
  omega

theorem admitted_eq_false_iff (c : Command) : c.admitted = false ↔ c.temp.toNat < 16 ∨ 30 < c.temp.toNat := by
  rw [Command.admitted, Bool.and_eq_false_iff, decide_eq_false_iff_not, decide_eq_false_iff_not, Nat.not_le, Nat.not_le]

/-- Under `refuse` a Command that is not admitted gives no word (40_encoder.md R79). -/
theorem encodeCommand_refuse_of_not_admitted {c : Command} (h : c.admitted = false) :
    encodeCommand .refuse c = .error .refTempRange := by
  simp [encodeCommand, h]

/-- ENCODE completes where the Command has a word, and leaves the Command on CMD (40_encoder.md R69). -/
theorem exec_encode_of_ok {s : State} {c : Command} {w : Word} (h : encodeCommand s.tempPolicy c = .ok w) :
    exec (.encode c) s = .next (s.driveCmd (packCmd c)) := by
  simp [exec, execEncode, h]

/-- ENCODE is refused where the Command has no word, for the same reason (40_encoder.md R79). -/
theorem exec_encode_of_error {s : State} {c : Command} {r : Refusal} (h : encodeCommand s.tempPolicy c = .error r) :
    exec (.encode c) s = .refused r := by
  simp [exec, execEncode, h]

/-- With a Command on CMD, FRAME_OUT is what ENCODE gives for it (40_encoder.md R69). -/
theorem frameOut_driveCmd_packCmd (s : State) (c : Command) :
    (s.driveCmd (packCmd c)).frameOut = encodeCommand s.tempPolicy c := by
  simp [State.frameOut, frameOf]

/-- Settles O7: `refuse` rejects a temperature that is not admitted, and `wrap` gives every Command its word, whose bits 16:9
are the temperature's code. -/
theorem temperaturePrecondition : Obligations.TemperaturePrecondition := by
  refine fun s c => ⟨fun hpolicy hrange => ?refuse, fun hpolicy => ?wrap⟩
  case refuse =>
    apply exec_encode_of_error
    rw [hpolicy, encodeCommand_refuse_of_not_admitted ((admitted_eq_false_iff c).2 hrange)]
  case wrap =>
    have hword : encodeCommand s.tempPolicy c = .ok (commandWord c) :=
      (encodeCommand_ok_iff _ _ _).2 ⟨.inl hpolicy, rfl⟩
    obtain ⟨-, -, -, htemp⟩ := extractLsb'_commandWord c
    exact ⟨_, exec_encode_of_ok hword, _, (frameOut_driveCmd_packCmd s c).trans hword, htemp⟩

end Sys2Proof.Machine

/-! ### The symbols, and the phases of one repetition -/

namespace Sys2Proof.Machine

/-- The symbol of a bit is its complement and then the bit, 950 microseconds each (41_modulator.md R84). -/
theorem sym_eq (b : Bool) : sym b = [⟨!b, 950⟩, ⟨b, 950⟩] := rfl

/-- Settles O27: the two instances of R84's symbol, the bit in the second half. -/
theorem symbolPolarity : Obligations.SymbolPolarity := ⟨sym_eq true, sym_eq false⟩

/-- Settles O28: R86's list is the definition with the two preamble durations written out, and its length is the sum of the
lengths of its parts. -/
theorem repetitionHasSeventyPhases : Obligations.RepetitionHasSeventyPhases := fun w => ⟨rfl, length_framePhases w⟩

end Sys2Proof.Machine

/-! ### The end of a transmission -/

namespace Sys2Proof.Machine

/-- STOP runs in the last phase (41_modulator.md R92). -/
theorem elementAt_last (w : Word) : elementAt w 210 = .stop := rfl

/-- The last phase lasts as long as the stop pulse (41_modulator.md R88). -/
theorem durOf_last : durOf (phaseOf 210) = 4000 := rfl

/-- The first poll at or past the stop pulse's duration finishes the transmission (41_modulator.md R94, R95). -/
theorem State.poll_last_of_ended {s : State} {t0 : Micros} (w : Word) (h : 4000 ≤ (s.tick.timer - t0).toNat) :
    s.poll w t0 210 = s.timerRead.finish := by
  have hended : phaseEnded t0 s.timerRead.timer (durOf (phaseOf 210)) = true := by
    rw [phaseEnded_iff, durOf_last]
    exact h
  obtain ⟨hrunning, -⟩ | ⟨-, ⟨hnext, -⟩ | ⟨-, hfinish⟩⟩ := s.poll_cases w t0 210
  · exact absurd (hended.symm.trans hrunning) (by decide)
  · exact absurd hnext (by decide)
  · exact hfinish

/-- STOP at the end of the last phase is its poll's timer read and then `Finish` (41_modulator.md R92, R96). -/
theorem exec_stop_of_ended {s : State} {w : Word} {t0 : Micros} (hseq : s.seq = .run 210) (hfr : s.fr = some w)
    (ht0 : s.t0 = some t0) (h : 4000 ≤ (s.tick.timer - t0).toNat) : exec .stop s = .next s.timerRead.finish := by
  calc exec .stop s
    _ = s.runElement (elementAt w 210) := by rw [elementAt_last]; rfl
    _ = .next (s.poll w t0 210) := State.runElement_eq hseq hfr ht0
    _ = .next s.timerRead.finish := by rw [State.poll_last_of_ended w h]

/-- The two events of `Finish`: the off write and TX_DONE, with no timer read between them (41_modulator.md R96). -/
theorem State.finish_trace_kinds (s : State) :
    s.finish.trace.map Event.kind = .txDone :: .carrierWrite false :: s.trace.map Event.kind := rfl

/-- TX_DONE is signalled in the state that `Finish` leaves (41_modulator.md R96). -/
theorem State.finish_txDone (s : State) : s.finish.txDone = true := rfl

/-- Settles O37: the poll ends phase 210 and `Finish` follows it, which writes the carrier, SEQ, BUSY and the trace and
no other field of the block. -/
theorem stopFinishesTheTransmission : Obligations.StopFinishesTheTransmission := by
  intro s w t0 hseq hfr ht0 hended
  refine ⟨s.timerRead.finish, exec_stop_of_ended hseq hfr ht0 hended, State.finish_seq _, State.finish_busy _,
    State.finish_carrier _, (State.finish_fr _).trans hfr, State.finish_txDone _, ?events, ?frame⟩
  case events => rw [State.finish_trace_kinds, State.timerRead_trace, List.map_cons]
  case frame => simp

end Sys2Proof.Machine

/-! ### Elapsed time modulo 2^64 -/

namespace Sys2Proof.Machine

/-- Modular elapsed time is the true one where that is below 2^64, wherever the counter wrapped (41_modulator.md R107). -/
theorem toNat_elapsed64_ofNat {c0 c : Nat} (hle : c0 ≤ c) (hlt : c - c0 < 2 ^ 64) :
    (elapsed64 (BitVec.ofNat 64 c0) (BitVec.ofNat 64 c)).toNat = c - c0 := by
  rw [elapsed64, BitVec.toNat_sub, BitVec.toNat_ofNat, BitVec.toNat_ofNat]
  omega

/-- Settles O46: the spec's example is the reading 850 of a clock that has passed 2^64. -/
theorem elapsedTimeIsExactAcrossAWrap : Obligations.ElapsedTimeIsExactAcrossAWrap := by
  refine ⟨fun c0 c => toNat_elapsed64_ofNat, BitVec.eq_of_toNat_eq ?_⟩
  have hwrapped : (850 : Micros) = BitVec.ofNat 64 (2 ^ 64 + 850) := by decide
  rw [hwrapped]
  exact toNat_elapsed64_ofNat (by decide) (by decide)

end Sys2Proof.Machine

/-! ### Bits of a word by the fields they stand in -/

namespace Sys2Proof

/-- Values whose bits `o` to `o + n - 1` agree as a field agree in each of these bits. -/
theorem getLsbD_eq_of_extractLsb'_eq {w o n : Nat} {x y : BitVec w} (h : x.extractLsb' o n = y.extractLsb' o n) {i : Nat}
    (hi : o ≤ i ∧ i < o + n) : x.getLsbD i = y.getLsbD i := by
  have hbit := congrArg (fun z : BitVec n => z.getLsbD (i - o)) h
  have hlt : i - o < n := by omega
  have hback : o + (i - o) = i := by omega
  simpa [BitVec.getLsbD_extractLsb', hlt, hback] using hbit

/-- A mask of ones over a field keeps exactly that field. -/
theorem and_placeAt_allOnes (w : Word) (o n : Nat) :
    w &&& placeAt 32 o (BitVec.allOnes n) = placeAt 32 o (w.extractLsb' o n) := by
  ext i hi
  by_cases hlow : i < o
  · simp [placeAt, hlow]
  · have hback : o + (i - o) = i := by omega
    by_cases hhigh : i - o < n <;> simp [placeAt, hlow, hhigh, hback, hi]

/-- A word matches the row of a field's value exactly where it has that value in the field (30_encoding.md R64). -/
theorem and_mask_eq_iff_extractLsb'_eq (w : Word) {o n : Nat} (hfits : o + n ≤ 32) (x : BitVec n) :
    w &&& placeAt 32 o (BitVec.allOnes n) = placeAt 32 o x ↔ w.extractLsb' o n = x := by
  rw [and_placeAt_allOnes]
  refine ⟨fun h => ?_, fun h => by rw [h]⟩
  rw [← extractLsb'_placeAt_same (w.extractLsb' o n) hfits, h, extractLsb'_placeAt_same x hfits]

end Sys2Proof

/-! ### Encodings -/

namespace Sys2Proof

/-- A CMD16 value is a Command's exactly as the decoder reads it: no bit is dropped (30_encoding.md R46, R67). -/
theorem packCmd_of_decodeCmd {v : Cmd16} {c : Command} (h : decodeCmd v = .ok c) : packCmd c = v := by
  obtain ⟨hrsvd, hmode, hc⟩ := (decodeCmd_ok_iff v c).1 h
  obtain ⟨hfunction', hmode', hfan', hrsvd', htemp'⟩ := extractLsb'_packCmd c
  have hfunction : (packCmd c).extractLsb' 0 1 = v.extractLsb' 0 1 := by
    rw [hfunction', hc, selOfFunction_functionOfSel]
  have hmode : (packCmd c).extractLsb' 1 3 = v.extractLsb' 1 3 := by
    rw [hmode', (modeOfSel_eq_some_iff _ _).1 hmode]
  have hfan : (packCmd c).extractLsb' 4 2 = v.extractLsb' 4 2 := by
    rw [hfan', hc, selOfFan_fanOfSel]
  have hrsvd : (packCmd c).extractLsb' 6 2 = v.extractLsb' 6 2 := by
    rw [hrsvd', hrsvd]
  have htemp : (packCmd c).extractLsb' 8 8 = v.extractLsb' 8 8 := by
    rw [htemp', hc]
  refine BitVec.eq_of_getLsbD_eq fun i hi => ?_
  obtain h0 | h1 | h4 | h6 | h8 : i < 1 ∨ (1 ≤ i ∧ i < 4) ∨ (4 ≤ i ∧ i < 6) ∨ (6 ≤ i ∧ i < 8) ∨ 8 ≤ i := by omega
  · exact getLsbD_eq_of_extractLsb'_eq hfunction (by omega)
  · exact getLsbD_eq_of_extractLsb'_eq hmode h1
  · exact getLsbD_eq_of_extractLsb'_eq hfan h4
  · exact getLsbD_eq_of_extractLsb'_eq hrsvd h6
  · exact getLsbD_eq_of_extractLsb'_eq htemp (by omega)

/-- The decoder at the CMD port reads the port's 16 bits. -/
theorem decode_cmd_of_ok {bits : Word} {c : Command} (h : decodeCmd (bits.setWidth 16) = .ok c) :
    decode .cmd bits = .ok (.encode c) := by
  rw [decode, h]

theorem decode_cmd_of_error {bits : Word} {e : CmdError} (h : decodeCmd (bits.setWidth 16) = .error e) :
    decode .cmd bits = .error (.cmd e) := by
  rw [decode, h]

/-- What decodes at the CMD port is ENCODE of the Command that the port's 16 bits name. -/
theorem decode_cmd_ok {bits : Word} {i : Instr} (h : decode .cmd bits = .ok i) :
    ∃ c, i = .encode c ∧ decodeCmd (bits.setWidth 16) = .ok c := by
  cases hc : decodeCmd (bits.setWidth 16) with
  | ok c => exact ⟨c, by rw [decode_cmd_of_ok hc] at h; cases h; rfl, rfl⟩
  | error e => rw [decode_cmd_of_error hc] at h; cases h

/-- Settles O1: the CMD port reads the packed Command back, the temperature field reads back the code placed there, and every
other row has one word or takes any word whole. -/
theorem decodeOfEncodeIsTheInstruction : Obligations.DecodeOfEncodeIsTheInstruction := by
  intro i
  cases i with
  | encode c =>
    refine decode_cmd_of_ok ?_
    rw [encode, BitVec.setWidth_setWidth_of_le _ (by decide), BitVec.setWidth_eq, decodeCmd_packCmd]
  | temp code =>
    have hcode : (placeAt 32 9 code).extractLsb' 9 8 = code := extractLsb'_placeAt_same code (by decide)
    exact congrArg (fun x => Except.ok (Instr.temp x)) hcode
  | transmit w => rfl
  | fnSetting | fnPower | modeCool | modeHeat | modeRecycle | modeWater | modeFan | fanLow | fanMed | fanHi | fanAuto
  | rsvd8to6 | rsvd31to17 | preamble | sym1 | sym0 | trailer1 | trailer0 | stop => decide

/-- The function rows by their bit (30_encoding.md R47). -/
theorem decode_function_iff (w : Word) :
    (decode (.field .function) w = .ok .fnSetting ↔ w.extractLsb' 0 1 = 0) ∧
    (decode (.field .function) w = .ok .fnPower ↔ w.extractLsb' 0 1 = 1) := by
  simp only [decode, decodeField]
  generalize w.extractLsb' 0 1 = b
  revert b; decide

/-- The mode rows by their code (30_encoding.md R49). -/
theorem decode_mode_iff (w : Word) :
    (decode (.field .mode) w = .ok .modeCool ↔ w.extractLsb' 1 3 = 4) ∧
    (decode (.field .mode) w = .ok .modeHeat ↔ w.extractLsb' 1 3 = 2) ∧
    (decode (.field .mode) w = .ok .modeRecycle ↔ w.extractLsb' 1 3 = 6) ∧
    (decode (.field .mode) w = .ok .modeWater ↔ w.extractLsb' 1 3 = 1) ∧
    (decode (.field .mode) w = .ok .modeFan ↔ w.extractLsb' 1 3 = 5) := by
  simp only [decode, decodeField]
  generalize w.extractLsb' 1 3 = m
  revert m; decide

/-- The fan rows by their code (30_encoding.md R51). -/
theorem decode_fanSpeed_iff (w : Word) :
    (decode (.field .fanSpeed) w = .ok .fanLow ↔ w.extractLsb' 4 2 = 0) ∧
    (decode (.field .fanSpeed) w = .ok .fanMed ↔ w.extractLsb' 4 2 = 1) ∧
    (decode (.field .fanSpeed) w = .ok .fanHi ↔ w.extractLsb' 4 2 = 2) ∧
    (decode (.field .fanSpeed) w = .ok .fanAuto ↔ w.extractLsb' 4 2 = 3) := by
  simp only [decode, decodeField]
  generalize w.extractLsb' 4 2 = a
  revert a; decide

theorem decode_reserved8to6_iff (w : Word) :
    decode (.field .reserved8to6) w = .ok .rsvd8to6 ↔ w.extractLsb' 6 3 = 0 := by
  by_cases h : w.extractLsb' 6 3 = 0 <;> simp [decode, decodeField, h]

theorem decode_reserved31to17_iff (w : Word) :
    decode (.field .reserved31to17) w = .ok .rsvd31to17 ↔ w.extractLsb' 17 15 = 0 := by
  by_cases h : w.extractLsb' 17 15 = 0 <;> simp [decode, decodeField, h]

/-- The WAVE rows by their level string (30_encoding.md R59 to R61, R64). -/
theorem decode_wave_iff (w : Word) :
    (decode (.wave .preamble) w = .ok .preamble ↔ w.extractLsb' 0 2 = 2) ∧
    (decode (.wave .data) w = .ok .sym1 ↔ w.extractLsb' 0 2 = 1) ∧
    (decode (.wave .data) w = .ok .sym0 ↔ w.extractLsb' 0 2 = 2) ∧
    (decode (.wave .trailer1) w = .ok .trailer1 ↔ w.extractLsb' 0 2 = 1) ∧
    (decode (.wave .trailer0) w = .ok .trailer0 ↔ w.extractLsb' 0 2 = 2) ∧
    (decode (.wave .stop) w = .ok .stop ↔ w.extractLsb' 0 2 = 2) := by
  have hlevels : w.setWidth 2 = w.extractLsb' 0 2 := BitVec.setWidth_eq_extractLsb' (by decide)
  simp only [decode, hlevels]
  generalize w.extractLsb' 0 2 = levels
  revert levels; decide

/-- A field row is decoded from exactly the words that match it (30_encoding.md R64). -/
theorem decode_field_row_iff {i : Instr} {f : FrameField} (w : Word) (hslot : (encode i).1 = .field f)
    (htemp : f ≠ .tempCode) : decode (.field f) w = .ok i ↔ w &&& rowMask i = rowMatch i := by
  obtain ⟨hsetting, hpower⟩ := decode_function_iff w
  obtain ⟨hcool, hheat, hrecycle, hwater, hfan⟩ := decode_mode_iff w
  obtain ⟨hlow, hmed, hhi, hauto⟩ := decode_fanSpeed_iff w
  have row {o n : Nat} (hfits : o + n ≤ 32) (x : BitVec n) := (and_mask_eq_iff_extractLsb'_eq w hfits x).symm
  cases i with
  | fnSetting => cases hslot; exact hsetting.trans (row (by decide) 0)
  | fnPower => cases hslot; exact hpower.trans (row (by decide) 1)
  | modeCool => cases hslot; exact hcool.trans (row (by decide) 4)
  | modeHeat => cases hslot; exact hheat.trans (row (by decide) 2)
  | modeRecycle => cases hslot; exact hrecycle.trans (row (by decide) 6)
  | modeWater => cases hslot; exact hwater.trans (row (by decide) 1)
  | modeFan => cases hslot; exact hfan.trans (row (by decide) 5)
  | fanLow => cases hslot; exact hlow.trans (row (by decide) 0)
  | fanMed => cases hslot; exact hmed.trans (row (by decide) 1)
  | fanHi => cases hslot; exact hhi.trans (row (by decide) 2)
  | fanAuto => cases hslot; exact hauto.trans (row (by decide) 3)
  | rsvd8to6 => cases hslot; exact (decode_reserved8to6_iff w).trans (row (by decide) 0)
  | rsvd31to17 => cases hslot; exact (decode_reserved31to17_iff w).trans (row (by decide) 0)
  | temp code => cases hslot; exact absurd rfl htemp
  | encode | transmit | preamble | sym1 | sym0 | trailer1 | trailer0 | stop => cases hslot

/-- A WAVE row is decoded from exactly the words that match it (30_encoding.md R64). -/
theorem decode_wave_row_iff {i : Instr} {e : Element} (w : Word) (hslot : (encode i).1 = .wave e) :
    decode (.wave e) w = .ok i ↔ w &&& rowMask i = rowMatch i := by
  obtain ⟨hpreamble, hsym1, hsym0, htrailer1, htrailer0, hstop⟩ := decode_wave_iff w
  have row (x : BitVec 2) := (and_mask_eq_iff_extractLsb'_eq w (o := 0) (by decide) x).symm
  cases i with
  | preamble => cases hslot; exact hpreamble.trans (row 2)
  | sym1 => cases hslot; exact hsym1.trans (row 1)
  | sym0 => cases hslot; exact hsym0.trans (row 2)
  | trailer1 => cases hslot; exact htrailer1.trans (row 1)
  | trailer0 => cases hslot; exact htrailer0.trans (row 2)
  | stop => cases hslot; exact hstop.trans (row 2)
  | encode | transmit | fnSetting | fnPower | modeCool | modeHeat | modeRecycle | modeWater | modeFan | fanLow | fanMed
  | fanHi | fanAuto | temp | rsvd8to6 | rsvd31to17 => cases hslot

/-- The temperature field by mask and shift, as the table has it (opcode_table.json, TEMP). -/
theorem extractLsb'_tempCode (w : Word) : w.extractLsb' 9 8 = ((w &&& 0x1FE00) >>> 9).setWidth 8 := by
  have hmask : w &&& 0x1FE00 = placeAt 32 9 (w.extractLsb' 9 8) := and_placeAt_allOnes w 9 8
  rw [hmask, BitVec.setWidth_ushiftRight_eq_extractLsb, extractLsb'_placeAt_same _ (by decide)]

/-- Settles O3: both clauses on rows are the row read as a field's value, and TEMP's code is the field. -/
theorem rowsDecodeExactlyTheirWords : Obligations.RowsDecodeExactlyTheirWords :=
  ⟨fun _ _ w hslot htemp => decode_field_row_iff w hslot htemp, fun _ _ w hslot => decode_wave_row_iff w hslot,
    fun w => congrArg (fun x => Except.ok (Instr.temp x)) (extractLsb'_tempCode w)⟩

/-- What decodes at a slot is an instruction of that slot (30_encoding.md R64). -/
theorem slot_of_decode {slot : Slot} {bits : Word} {i : Instr} (h : decode slot bits = .ok i) : (encode i).1 = slot := by
  cases slot with
  | cmd =>
    obtain ⟨c, rfl, -⟩ := decode_cmd_ok h
    rfl
  | txFrame => cases h; rfl
  | field f =>
    cases f with
    | tempCode => cases h; rfl
    | function | mode | fanSpeed | reserved8to6 | reserved31to17 =>
      simp only [decode, decodeField] at h
      split at h <;> cases h <;> rfl
  | wave e =>
    simp only [decode, decodeWave] at h
    split at h <;> cases h <;> rfl

/-- The bits that decode to ENCODE match its row, which fixes bits 7:6 (opcode_table.json, ENCODE). -/
theorem row_of_decode_cmd {bits : Word} {c : Command} (h : decodeCmd (bits.setWidth 16) = .ok c) :
    bits &&& rowMask (.encode c) = rowMatch (.encode c) := by
  obtain ⟨hrsvd, -⟩ := (decodeCmd_ok_iff _ _).1 h
  have hbits : bits.extractLsb' 6 2 = 0 := by
    rw [← hrsvd]
    ext i hi
    have : 6 + i < 16 := by omega
    simp [this]
  exact (and_mask_eq_iff_extractLsb'_eq bits (o := 6) (by decide) (0 : BitVec 2)).2 hbits

/-- Settles O2: at a field or a WAVE slot the rows decode from exactly their words, at CMD the decoder reads all 16 bits and
leaves 7:6 at 0, and at TX_FRAME the word is the operand. -/
theorem decodedBitsMatchTheirRow : Obligations.DecodedBitsMatchTheirRow := by
  intro slot bits i h
  have hslot := slot_of_decode h
  refine ⟨hslot, ?row, ?cmd, ?txFrame⟩
  case row =>
    cases slot with
    | cmd =>
      obtain ⟨c, rfl, hc⟩ := decode_cmd_ok h
      exact row_of_decode_cmd hc
    | txFrame => cases h; exact BitVec.and_zero
    | field f =>
      by_cases htemp : f = .tempCode
      · subst htemp; cases h; exact BitVec.and_zero
      · exact (decode_field_row_iff bits hslot htemp).1 h
    | wave e => exact (decode_wave_row_iff bits hslot).1 h
  case cmd =>
    rintro rfl
    obtain ⟨c, rfl, hc⟩ := decode_cmd_ok h
    rw [encode, packCmd_of_decodeCmd hc]
  case txFrame =>
    rintro rfl
    cases h
    rfl

/-- Settles O4: fixed words, evaluated. -/
theorem specWordsDecode : Obligations.SpecWordsDecode := by
  unfold Obligations.SpecWordsDecode
  decide

end Sys2Proof

/-! ### The named phase and the element of each index -/

namespace Sys2Proof.Machine

/-- The half of a symbol at its phase number 0 or 1 (10_state.md R14). -/
def halfOf (h : Nat) : Half := if h = 0 then .first else .second

/-- Which named phase stands at a phase index, by the indices of 41_modulator.md R88; `phaseOf` computes it
(`phaseIndex_phaseOf`, `phaseOf_eq_of_phaseIndex`). -/
inductive PhaseIndex : Nat → Ph → Prop where
  | preOn (r : Nat) (hr : r < 3) : PhaseIndex (70 * r + 0) .preOn
  | preOff (r : Nat) (hr : r < 3) : PhaseIndex (70 * r + 1) .preOff
  | bit (r i h : Nat) (hr : r < 3) (hi : i < 32) (hh : h < 2) :
      PhaseIndex (70 * r + 2 + 2 * i + h) (.bit ⟨i, hi⟩ (halfOf h))
  | trl1 (r h : Nat) (hr : r < 3) (hh : h < 2) : PhaseIndex (70 * r + 66 + h) (.trl1 (halfOf h))
  | trl0 (r h : Nat) (hr : r < 3) (hh : h < 2) : PhaseIndex (70 * r + 68 + h) (.trl0 (halfOf h))
  | stopOn : PhaseIndex 210 .stopOn

/-- Every index has a named phase. -/
theorem exists_phaseIndex {n : Nat} (hn : n < 211) : ∃ p, PhaseIndex n p := by
  suffices h : ∃ m p, PhaseIndex m p ∧ m = n by
    obtain ⟨m, p, hp, rfl⟩ := h
    exact ⟨p, hp⟩
  obtain ⟨r, j, hj, rfl⟩ : ∃ r j, j < 70 ∧ n = 70 * r + j := ⟨n / 70, n % 70, by omega, by omega⟩
  obtain hr | hr : r = 3 ∨ r < 3 := by omega
  · exact ⟨_, _, .stopOn, by omega⟩
  · obtain rfl | rfl | hbit | htrl1 | htrl0 : j = 0 ∨ j = 1 ∨ (2 ≤ j ∧ j < 66) ∨ (66 ≤ j ∧ j < 68) ∨ 68 ≤ j := by omega
    · exact ⟨_, _, .preOn r hr, rfl⟩
    · exact ⟨_, _, .preOff r hr, rfl⟩
    · exact ⟨_, _, .bit r ((j - 2) / 2) (j % 2) hr (by omega) (by omega), by omega⟩
    · exact ⟨_, _, .trl1 r (j - 66) hr (by omega), by omega⟩
    · exact ⟨_, _, .trl0 r (j - 68) hr (by omega), by omega⟩

/-- The named phase at `j` of repetition `r` does not depend on `r` (41_modulator.md R88). -/
theorem phaseOf_of_repetition {k : Fin 211} {r j : Nat} (hr : r < 3) (hj : j < 70) (hk : k.val = 70 * r + j) :
    phaseOf k = if j = 0 then .preOn else if j = 1 then .preOff
      else if j < 66 then .bit (Fin.ofNat 32 ((j - 2) / 2)) (halfOf (j % 2))
      else if j < 68 then .trl1 (halfOf (j % 2)) else .trl0 (halfOf (j % 2)) := by
  have hmod : k.val % 70 = j := by omega
  have hrunning : k.val ≠ 210 := by omega
  simp only [phaseOf, hmod, hrunning, if_false, halfOf]

/-- The named phase of an index is the one that 41_modulator.md R88 lists there. -/
theorem phaseOf_eq_of_phaseIndex {k : Fin 211} {n : Nat} {p : Ph} (hk : k.val = n) (h : PhaseIndex n p) : phaseOf k = p := by
  cases h with
  | preOn r hr => rw [phaseOf_of_repetition hr (by decide) hk]; rfl
  | preOff r hr => rw [phaseOf_of_repetition hr (by decide) hk]; rfl
  | bit r i h hr hi hh =>
    rw [phaseOf_of_repetition (j := 2 + 2 * i + h) hr (by omega) (by omega), if_neg (by omega), if_neg (by omega),
      if_pos (by omega)]
    congr 1
    · exact Fin.ext (show (2 + 2 * i + h - 2) / 2 % 32 = i by omega)
    · congr 1; omega
  | trl1 r h hr hh =>
    rw [phaseOf_of_repetition (j := 66 + h) hr (by omega) (by omega), if_neg (by omega), if_neg (by omega),
      if_neg (by omega), if_pos (by omega), show (66 + h) % 2 = h by omega]
  | trl0 r h hr hh =>
    rw [phaseOf_of_repetition (j := 68 + h) hr (by omega) (by omega), if_neg (by omega), if_neg (by omega),
      if_neg (by omega), if_neg (by omega), show (68 + h) % 2 = h by omega]
  | stopOn => simp only [phaseOf, hk, if_true]

theorem phaseIndex_phaseOf (k : Fin 211) : PhaseIndex k.val (phaseOf k) := by
  obtain ⟨p, hp⟩ := exists_phaseIndex k.isLt
  rwa [phaseOf_eq_of_phaseIndex rfl hp]

/-- The two phases of a symbol, by half (41_modulator.md R84). -/
theorem getElem?_sym (b : Bool) {h : Nat} (hh : h < 2) :
    (sym b)[h]? = some ⟨if h = 0 then !b else b, tHalf⟩ := by
  obtain rfl | rfl : h = 0 ∨ h = 1 := by omega
  · rfl
  · rfl

/-- The level of a bit's phase, by half (41_modulator.md R88). -/
theorem levelOf_bit (w : Word) (i : Fin 32) (h : Nat) :
    levelOf w (.bit i (halfOf h)) = if h = 0 then !w.getLsbD i.val else w.getLsbD i.val := by
  by_cases hh : h = 0 <;> simp [halfOf, hh, levelOf]

/-- The phase at each index of a transmission is the one the sequencer has (41_modulator.md R87, R88). -/
theorem getElem?_txPhases_eq_phaseAt (w : Word) (k : Fin 211) : (txPhases w)[k.val]? = some (phaseAt w k) := by
  have h := phaseIndex_phaseOf k
  rw [phaseAt]
  generalize k.val = n, phaseOf k = p at h
  cases h with
  | preOn r hr => exact getElem?_txPhases w hr (by decide)
  | preOff r hr => exact getElem?_txPhases w hr (by decide)
  | bit r i h hr hi hh =>
    rw [Nat.add_assoc, Nat.add_assoc, getElem?_txPhases_bit w hr hi hh, getElem?_sym _ hh, levelOf_bit]
    rfl
  | trl1 r h hr hh =>
    obtain rfl | rfl : h = 0 ∨ h = 1 := by omega
    · exact getElem?_txPhases_trailer w hr (j := 0) (by decide)
    · exact getElem?_txPhases_trailer w hr (j := 1) (by decide)
  | trl0 r h hr hh =>
    obtain rfl | rfl : h = 0 ∨ h = 1 := by omega
    · exact getElem?_txPhases_trailer w hr (j := 2) (by decide)
    · exact getElem?_txPhases_trailer w hr (j := 3) (by decide)
  | stopOn => exact getElem?_txPhases_stop w

/-- A transmission has 211 phases: three repetitions of 70 and the stop pulse (41_modulator.md R87). -/
@[simp] theorem length_txPhases (w : Word) : (txPhases w).length = 211 := by
  simp [txPhases]

/-- REP below the last phase (10_state.md R14). -/
theorem repOf_of_lt {k : Fin 211} (h : k.val < 210) : ∃ r : Fin 3, repOf k = some r ∧ r.val = k.val / 70 := by
  refine ⟨Fin.ofNat 3 (k.val / 70), by rw [repOf, if_neg (by omega)], Nat.mod_eq_of_lt (by omega)⟩

/-- Settles O29: the phase of each index from the index's named phase, and REP from the index. -/
theorem transmissionPhasesByIndex : Obligations.TransmissionPhasesByIndex := by
  refine ⟨fun w => ⟨rfl, length_txPhases w, getElem?_txPhases_eq_phaseAt w⟩, fun s k hseq => ?_⟩
  have hrep : s.readRep = .ok (repOf k) := by rw [State.readRep, hseq]
  rw [hrep]
  refine ⟨fun hlt => ?_, fun hlast => by rw [repOf, if_pos hlast]⟩
  obtain ⟨r, hr, hval⟩ := repOf_of_lt hlt
  exact ⟨r, by rw [hr], hval⟩

/-- Settles O32: both indices are the same phase of the frame, in a repetition and the next one. -/
theorem repetitionsAreIdentical : Obligations.RepetitionsAreIdentical := by
  intro w k hk
  have hthis : k = 70 * (k / 70) + k % 70 := by omega
  have hnext : k + 70 = 70 * (k / 70 + 1) + k % 70 := by omega
  calc (txPhases w)[k]?
    _ = (framePhases w)[k % 70]? := by rw [hthis, getElem?_txPhases w (by omega) (by omega), ← hthis]
    _ = (txPhases w)[k + 70]? := by rw [hnext, getElem?_txPhases w (by omega) (by omega)]

/-- The element of each index is the one that 41_modulator.md R89 to R92 give the index. -/
theorem elementPhase_elementAt (w : Word) (k : Fin 211) : ElementPhase w (elementAt w k) k.val := by
  have h := phaseIndex_phaseOf k
  rw [elementAt]
  generalize k.val = n, phaseOf k = p at h
  cases h with
  | preOn r hr => exact .preamble r 0 hr (by decide)
  | preOff r hr => exact .preamble r 1 hr (by decide)
  | bit r i h hr hi hh =>
    cases hb : w.getLsbD i with
    | true => simpa [hb] using ElementPhase.sym1 r i h hr hi hh hb
    | false => simpa [hb] using ElementPhase.sym0 r i h hr hi hh hb
  | trl1 r h hr hh => exact .trailer1 r h hr hh
  | trl0 r h hr hh => exact .trailer0 r h hr hh
  | stopOn => exact .stop

/-- An index has one element only (41_modulator.md R89 to R92). -/
theorem elementAt_eq_of_elementPhase {w : Word} {i : Instr} {k : Fin 211} (h : ElementPhase w i k.val) :
    elementAt w k = i := by
  have named {p : Ph} (hp : PhaseIndex k.val p) : phaseOf k = p := phaseOf_eq_of_phaseIndex rfl hp
  rw [elementAt]
  generalize k.val = n at h named
  cases h with
  | preamble r h hr hh =>
    obtain rfl | rfl : h = 0 ∨ h = 1 := by omega
    · rw [named (.preOn r hr)]
    · rw [named (.preOff r hr)]
  | sym1 r i h hr hi hh hb => rw [named (.bit r i h hr hi hh)]; exact if_pos hb
  | sym0 r i h hr hi hh hb => rw [named (.bit r i h hr hi hh)]; exact if_neg (by simp [hb])
  | trailer1 r h hr hh => rw [named (.trl1 r h hr hh)]
  | trailer0 r h hr hh => rw [named (.trl0 r h hr hh)]
  | stop => rw [named .stopOn]

end Sys2Proof.Machine

/-! ### The nominal schedule -/

namespace Sys2Proof.Machine

/-- The durations of one repetition: the preamble's two and 68 halves of symbols (41_modulator.md R86). -/
def frameDurs : List Nat := [tPreOn, tPreOff] ++ List.replicate 68 tHalf

/-- A run of symbols has the same durations whatever its bits are (41_modulator.md R84). -/
theorem map_dur_flatMap_sym {α : Type} (b : α → Bool) (l : List α) :
    (l.flatMap fun a => sym (b a)).map Phase.dur = List.replicate (2 * l.length) tHalf := by
  induction l with
  | nil => rfl
  | cons a l ih =>
    rw [List.flatMap_cons, List.map_append, ih, List.length_cons, show 2 * (l.length + 1) = 2 + 2 * l.length by omega,
      List.replicate_add]
    rfl

theorem map_dur_framePhases (w : Word) : (framePhases w).map Phase.dur = frameDurs := by
  simp only [framePhases, List.map_append, map_dur_flatMap_sym]
  rfl

theorem map_dur_txPhases (w : Word) :
    (txPhases w).map Phase.dur = frameDurs ++ (frameDurs ++ (frameDurs ++ [tStop])) := by
  simp only [txPhases, List.map_append, map_dur_framePhases, List.append_assoc]
  rfl

theorem length_frameDurs : frameDurs.length = 70 := rfl

/-- From the preamble on, each phase of a repetition lasts half a symbol (41_modulator.md R105). -/
theorem sum_take_frameDurs {m : Nat} (hm : m ≤ 68) : (frameDurs.take (2 + m)).sum = 5950 + 950 * m := by
  have htake : frameDurs.take (2 + m) = [tPreOn, tPreOff] ++ List.replicate m tHalf := by
    rw [frameDurs, List.take_append, List.take_of_length_le (Nat.le_add_right 2 m), List.length_cons, List.length_singleton,
      Nat.add_sub_cancel_left, List.take_replicate, Nat.min_eq_left hm]
  rw [htake, List.sum_append, List.sum_replicate, smul_eq_mul, Nat.mul_comm]
  rfl

theorem sum_frameDurs : frameDurs.sum = 70550 := by
  have hsum := sum_take_frameDurs (le_refl 68)
  rwa [List.take_of_length_le length_frameDurs.le] at hsum

/-- The nominal start of each phase of repetition `r`, and of the phase after it (41_modulator.md R105). -/
theorem nominalStart_repetition (w : Word) {r j : Nat} (hr : r < 3) (hj : j ≤ 70) :
    nominalStart w (70 * r + j) = 70550 * r + (frameDurs.take j).sum := by
  rw [nominalStart, List.map_take, map_dur_txPhases]
  have skip (l : List Nat) (n : Nat) : ((frameDurs ++ l).take (70 + n)).sum = 70550 + (l.take n).sum := by
    rw [← length_frameDurs, List.take_length_add_append, List.sum_append, sum_frameDurs]
  have within (l : List Nat) : (frameDurs ++ l).take j = frameDurs.take j :=
    List.take_append_of_le_length (hj.trans length_frameDurs.ge)
  obtain rfl | rfl | rfl : r = 0 ∨ r = 1 ∨ r = 2 := by omega
  · rw [Nat.mul_zero, Nat.zero_add, within, Nat.zero_add]
  · rw [Nat.mul_one, skip, within, Nat.mul_one]
  · rw [show 70 * 2 + j = 70 + (70 + j) by omega, skip, skip, within]
    omega

/-- The nominal length of a transmission (41_modulator.md R105, 70_reset_and_hazards.md R145). -/
theorem nominalStart_end (w : Word) : nominalStart w 211 = 215650 := by
  have hlast : (txPhases w).take 211 = txPhases w := List.take_of_length_le (length_txPhases w).le
  rw [nominalStart, hlast, map_dur_txPhases]
  simp only [List.sum_append, sum_frameDurs]
  rfl

/-- Settles O33: a repetition lasts 70550 and, from its preamble on, 950 a phase, so that each start is a linear sum. -/
theorem nominalSchedule : Obligations.NominalSchedule := by
  have behind (w : Word) {r m : Nat} (hr : r < 3) (hm : m ≤ 68) :
      nominalStart w (70 * r + (2 + m)) = 70550 * r + (5950 + 950 * m) := by
    rw [nominalStart_repetition w hr (by omega), sum_take_frameDurs hm]
  intro w
  refine ⟨behind w (r := 2) (m := 68) (by decide) (by decide), nominalStart_end w, fun r hr => ⟨?start, ?trailer1, ?trailer0,
    fun i hi => ?bit⟩⟩
  case start => exact nominalStart_repetition w (j := 0) hr (by decide)
  case trailer1 => exact behind w (m := 64) hr (by decide)
  case trailer0 => exact behind w (m := 66) hr (by decide)
  case bit =>
    rw [Nat.add_assoc, behind w hr (by omega)]
    omega

end Sys2Proof.Machine

/-! ### The intervals on the air -/

namespace Sys2Proof.Machine

theorem air_cons_of_nil {p : Phase} {ps : List Phase} (h : air ps = []) : air (p :: ps) = [p] := by
  rw [air, h]

/-- A phase of the level of the interval behind it makes that interval longer. -/
theorem air_cons_of_eq {p q : Phase} {ps qs : List Phase} (h : air ps = q :: qs) (hpq : p.level = q.level) :
    air (p :: ps) = ⟨p.level, p.dur + q.dur⟩ :: qs := by
  rw [air, h]
  exact if_pos hpq

/-- A phase of another level than the interval behind it is an interval of its own. -/
theorem air_cons_of_ne {p q : Phase} {ps qs : List Phase} (h : air ps = q :: qs) (hpq : p.level ≠ q.level) :
    air (p :: ps) = p :: q :: qs := by
  rw [air, h]
  exact if_neg hpq

/-- The first interval has the level of the first phase. -/
theorem exists_air_cons (p : Phase) (ps : List Phase) : ∃ d qs, air (p :: ps) = ⟨p.level, d⟩ :: qs := by
  cases h : air ps with
  | nil => exact ⟨_, _, air_cons_of_nil h⟩
  | cons q qs =>
    by_cases hpq : p.level = q.level
    · exact ⟨_, _, air_cons_of_eq h hpq⟩
    · exact ⟨_, _, air_cons_of_ne h hpq⟩

/-- Neighbouring intervals have different levels (41_modulator.md R106). -/
theorem isChain_air (l : List Phase) : List.IsChain (fun p q => p.level ≠ q.level) (air l) := by
  induction l with
  | nil => exact .nil
  | cons p ps ih =>
    cases h : air ps with
    | nil => rw [air_cons_of_nil h]; exact .singleton p
    | cons q qs =>
      rw [h] at ih
      by_cases hpq : p.level = q.level
      · rw [air_cons_of_eq h hpq]
        cases qs with
        | nil => exact .singleton _
        | cons q' qs =>
          rw [List.isChain_cons_cons] at ih ⊢
          exact ⟨hpq ▸ ih.1, ih.2⟩
      · rw [air_cons_of_ne h hpq]
        exact List.isChain_cons_cons.2 ⟨hpq, ih⟩

/-- Where the level changes from one list of phases to the next, no interval spans both. -/
theorem air_append {l : List Phase} {a b : Phase} (m : List Phase) (hab : a.level ≠ b.level) :
    air (l ++ a :: b :: m) = air (l ++ [a]) ++ air (b :: m) := by
  induction l with
  | nil =>
    obtain ⟨d, qs, hb⟩ := exists_air_cons b m
    rw [List.nil_append, air_cons_of_ne hb hab, List.nil_append, hb]
    rfl
  | cons p ps ih =>
    rw [List.cons_append, List.cons_append]
    obtain ⟨c, cs, hc⟩ : ∃ c cs, ps ++ [a] = c :: cs := by cases ps <;> exact ⟨_, _, rfl⟩
    obtain ⟨d, qs, h⟩ := exists_air_cons c cs
    rw [← hc] at h
    rw [h, List.cons_append] at ih
    by_cases hpc : p.level = c.level
    · rw [air_cons_of_eq ih hpc, air_cons_of_eq h hpc, List.cons_append]
    · rw [air_cons_of_ne ih hpc, air_cons_of_ne h hpc, List.cons_append, List.cons_append]

/-- The intervals of a run of symbols: the first is half a symbol, and of the others each is one half or two
(41_modulator.md R106). -/
theorem air_flatMap_sym (b : Bool) (bs : List Bool) :
    ∃ qs, air ((b :: bs).flatMap sym) = ⟨!b, 950⟩ :: qs ∧ ∀ q ∈ qs, q.dur = 950 ∨ q.dur = 1900 := by
  induction bs generalizing b with
  | nil => exact ⟨[⟨b, 950⟩], by cases b <;> rfl, by simp⟩
  | cons b' bs ih =>
    obtain ⟨qs, hair, hqs⟩ := ih b'
    have hsym : (b :: b' :: bs).flatMap sym = ⟨!b, 950⟩ :: ⟨b, 950⟩ :: (b' :: bs).flatMap sym := rfl
    have hne : (!b) ≠ b := by cases b <;> decide
    rw [hsym]
    by_cases hb : b = !b'
    · refine ⟨⟨b, 950 + 950⟩ :: qs, air_cons_of_ne (air_cons_of_eq hair hb) hne, ?_⟩
      exact List.forall_mem_cons.2 ⟨.inr rfl, hqs⟩
    · refine ⟨⟨b, 950⟩ :: ⟨!b', 950⟩ :: qs, air_cons_of_ne (air_cons_of_ne hair hb) hne, ?_⟩
      exact List.forall_mem_cons.2 ⟨.inl rfl, List.forall_mem_cons.2 ⟨.inl rfl, hqs⟩⟩

/-- The bits a repetition sends after its preamble: the word's, then the trailer's (41_modulator.md R86). -/
def frameBits (w : Word) : List Bool := (List.range 32).map w.getLsbD ++ [true, false]

theorem framePhases_eq_frameBits (w : Word) :
    framePhases w = ⟨true, 3050⟩ :: ⟨false, 2900⟩ :: (frameBits w).flatMap sym := by
  simp [framePhases, frameBits, List.flatMap_map, tPreOn, tPreOff]

/-- A repetition's intervals: the preamble's MARK alone, its SPACE with or without half a symbol, then the symbols'
(41_modulator.md R106). -/
theorem dur_of_mem_air_framePhases {w : Word} {p : Phase} (h : p ∈ air (framePhases w)) :
    p.dur ∈ [950, 1900, 2900, 3050, 3850, 4000] := by
  obtain ⟨b, bs, hbits⟩ : ∃ b bs, frameBits w = b :: bs := ⟨_, _, rfl⟩
  obtain ⟨qs, hair, hqs⟩ := air_flatMap_sym b bs
  have rest {q : Phase} (hq : q ∈ qs) : q.dur ∈ [950, 1900, 2900, 3050, 3850, 4000] := by
    obtain hdur | hdur := hqs q hq <;> rw [hdur] <;> decide
  rw [framePhases_eq_frameBits, hbits] at h
  cases b with
  | true =>
    have hoff : air (⟨false, 2900⟩ :: (true :: bs).flatMap sym) = ⟨false, 2900 + 950⟩ :: qs := air_cons_of_eq hair rfl
    rw [air_cons_of_ne hoff (by decide)] at h
    obtain rfl | rfl | hq := by simpa using h
    · decide
    · decide
    · exact rest hq
  | false =>
    rw [air_cons_of_ne (air_cons_of_ne hair (by decide)) (by decide)] at h
    obtain rfl | rfl | rfl | hq := by simpa using h
    · decide
    · decide
    · decide
    · exact rest hq

/-- A repetition ends with the carrier off, so that no interval spans its end where the carrier is then on. -/
theorem air_framePhases_append (w : Word) {l : List Phase} (h : l.head?.map Phase.level = some true) :
    air (framePhases w ++ l) = air (framePhases w) ++ air l := by
  obtain ⟨p, m, rfl, hp⟩ : ∃ p m, l = p :: m ∧ p.level = true := by
    cases l with
    | nil => cases h
    | cons p m => exact ⟨p, m, rfl, Option.some.inj h⟩
  obtain ⟨l', hl'⟩ : ∃ l', framePhases w = l' ++ [⟨false, tHalf⟩] :=
    ⟨[⟨true, tPreOn⟩, ⟨false, tPreOff⟩] ++ (List.range 32).flatMap (fun i => sym (w.getLsbD i)) ++ sym true ++
      [⟨true, tHalf⟩], by simp [framePhases, sym]⟩
  rw [hl', List.append_assoc, List.singleton_append]
  exact air_append m (by simp [hp])

theorem air_txPhases (w : Word) :
    air (txPhases w) = air (framePhases w) ++ (air (framePhases w) ++ (air (framePhases w) ++ [⟨true, 4000⟩])) := by
  rw [txPhases, List.append_assoc, List.append_assoc, air_framePhases_append w, air_framePhases_append w,
    air_framePhases_append w]
  all_goals rfl

/-- Settles O34: the three repetitions' intervals and the stop pulse stand side by side, each repetition's are of five
lengths, and `air` joins neighbours of one level. -/
theorem airIntervals : Obligations.AirIntervals := by
  intro w
  refine ⟨?last, fun p hp => ?lengths, isChain_air _⟩
  case last => simp [air_txPhases]
  case lengths =>
    obtain hp | rfl : p ∈ air (framePhases w) ∨ p = ⟨true, 4000⟩ := by
      rw [air_txPhases] at hp
      simpa using hp
    · exact dur_of_mem_air_framePhases hp
    · decide

end Sys2Proof.Machine

/-! ### What a step does to the block -/

namespace Sys2Proof.Machine

/-- `u` is `s` in all that belongs to the block and the timer: only ports, parameters and what other agents hold may
differ. -/
structure State.SameBlock (s u : State) : Prop where
  seq : u.seq = s.seq
  fr : u.fr = s.fr
  t0 : u.t0 = s.t0
  carrier : u.carrier = s.carrier
  busy : u.busy = s.busy
  clock : u.clock = s.clock
  timeIn : u.timeIn = s.timeIn
  draws : u.draws = s.draws
  trace : u.trace = s.trace

theorem State.SameBlock.drawAt {s u : State} (h : s.SameBlock u) (n : Nat) : u.drawAt n = s.drawAt n := by
  rw [State.drawAt, State.drawAt, h.timeIn, h.draws]

/-- What the block does in a step with RESET released: nothing, an acceptance, or a poll that leaves its phase running, begins
the next one, or finishes (41_modulator.md R94 to R97). -/
inductive State.Move : State → State → Prop where
  | stay (u : State) : Move u u
  | accept (u : State) (w : Word) (hidle : u.busy = false) : Move u (u.accept w)
  | wait (u : State) (k : Fin 211) (t0 : Micros) (hseq : u.seq = .run k) (ht0 : u.t0 = some t0)
      (hpoll : phaseEnded t0 u.timerRead.timer (durOf (phaseOf k)) = false) : Move u u.timerRead
  | begin (u : State) (k : Fin 211) (t0 : Micros) (hnext : k.val + 1 < 211) (hseq : u.seq = .run k) (ht0 : u.t0 = some t0)
      (hpoll : phaseEnded t0 u.timerRead.timer (durOf (phaseOf k)) = true) :
      Move u (u.timerRead.beginPhase (u.fr.getD 0) ⟨k.val + 1, hnext⟩)
  | finish (u : State) (k : Fin 211) (t0 : Micros) (hlast : k.val = 210) (hseq : u.seq = .run k) (ht0 : u.t0 = some t0)
      (hpoll : phaseEnded t0 u.timerRead.timer (durOf (phaseOf k)) = true) : Move u u.timerRead.finish

theorem State.move_poll {u : State} {k : Fin 211} {t0 : Micros} (hseq : u.seq = .run k) (ht0 : u.t0 = some t0) :
    u.Move (u.poll (u.fr.getD 0) t0 k) := by
  obtain ⟨hrun, heq⟩ | ⟨hended, ⟨hnext, heq⟩ | ⟨hlast, heq⟩⟩ := u.poll_cases (u.fr.getD 0) t0 k
  · exact heq ▸ .wait u k t0 hseq ht0 hrun
  · exact heq ▸ .begin u k t0 hnext hseq ht0 hended
  · exact heq ▸ .finish u k t0 hlast hseq ht0 hended

/-- A step is RESET, or a move of the block, from a state that differs only in what is not the block's. -/
theorem step_move {s t : State} (h : step s = .next t) :
    ∃ u, s.SameBlock u ∧ ((s.resetLevel = true ∧ t = u.applyReset) ∨ (s.resetLevel = false ∧ u.Move t)) := by
  obtain ⟨hr, rfl⟩ | ⟨hr, ops, p, x, ⟨c, r, y, rfl⟩ | ⟨hidle, w, rfl⟩ | ⟨k, t0, hseq, ht0, rfl⟩⟩ := step_cases h
  · exact ⟨s.nextResetIn, ⟨rfl, rfl, rfl, rfl, rfl, rfl, rfl, rfl, rfl⟩, .inl ⟨hr, rfl⟩⟩
  · refine ⟨_, ?_, .inr ⟨hr, .stay _⟩⟩
    exact ⟨rfl, rfl, rfl, rfl, rfl, rfl, rfl, rfl, rfl⟩
  · exact ⟨s.handedOn ops p x, ⟨rfl, rfl, rfl, rfl, rfl, rfl, rfl, rfl, rfl⟩, .inr ⟨hr, .accept _ w hidle⟩⟩
  · exact ⟨s.handedOn ops p x, ⟨rfl, rfl, rfl, rfl, rfl, rfl, rfl, rfl, rfl⟩, .inr ⟨hr, State.move_poll hseq ht0⟩⟩

end Sys2Proof.Machine

/-! ### The block's invariant -/

namespace Sys2Proof.Machine

theorem State.Inv.of_sameBlock {s u : State} (h : s.Inv) (hsame : s.SameBlock u) : u.Inv where
  busy_iff := by rw [hsame.busy, hsame.seq]; exact h.busy_iff
  running := by rw [hsame.seq, hsame.fr, hsame.t0, hsame.carrier]; exact h.running
  dark := by rw [hsame.seq, hsame.carrier]; exact h.dark

/-- A running phase is BUSY and has a word in FR. -/
theorem State.Inv.of_run {s : State} {k : Fin 211} (h : s.Inv) (hseq : s.seq = .run k) :
    s.busy = true ∧ ∃ w, s.fr = some w := by
  obtain ⟨w, t0, hfr, -, -⟩ := h.running k hseq
  exact ⟨h.busy_iff.2 (by rw [hseq]; exact Seq.noConfusion), w, hfr⟩

theorem State.Inv.seq_of_not_busy {s : State} (h : s.Inv) (hb : s.busy = false) : s.seq = .idle := by
  by_contra hne
  rw [h.busy_iff.2 hne] at hb
  cases hb

/-- An idle, dark block meets the invariant (10_state.md R26, R30). -/
theorem State.inv_of_idle {s : State} (hseq : s.seq = .idle) (hb : s.busy = false) (hc : s.carrier = false) : s.Inv where
  busy_iff := by simp [hseq, hb]
  running := by simp [hseq]
  dark _ := hc

/-- `BeginPhase` in a transmission of the word in FR leaves a running phase (41_modulator.md R93). -/
theorem State.beginPhase_inv {s : State} {w : Word} (k : Fin 211) (hb : s.busy = true) (hfr : s.fr = some w) :
    (s.beginPhase w k).Inv where
  busy_iff := by simp [hb]
  running j hj := by
    cases hj
    exact ⟨w, _, hfr, rfl, rfl⟩
  dark := nofun

theorem State.accept_inv (s : State) (w : Word) : (s.accept w).Inv := State.beginPhase_inv 0 rfl rfl

theorem State.Inv.move {u t : State} (h : u.Inv) (hmove : u.Move t) : t.Inv := by
  cases hmove with
  | stay => exact h
  | accept w => exact u.accept_inv w
  | wait k t0 hseq =>
    exact ⟨h.busy_iff, h.running, h.dark⟩
  | begin k t0 hnext hseq =>
    obtain ⟨hb, w, hfr⟩ := h.of_run hseq
    rw [hfr]
    exact State.beginPhase_inv _ hb hfr
  | finish => exact State.inv_of_idle rfl rfl rfl

/-- Settles O41: RESET leaves an idle, dark block; an acceptance and a poll that ends a phase leave a phase just begun, or
an idle block; nothing else writes what the invariant speaks of. -/
theorem stepKeepsTheBlockInvariant : Obligations.StepKeepsTheBlockInvariant := by
  intro s t hinv hstep
  obtain ⟨u, hsame, ⟨-, rfl⟩ | ⟨-, hmove⟩⟩ := step_move hstep
  · exact State.inv_of_idle rfl rfl rfl
  · exact (hinv.of_sameBlock hsame).move hmove

end Sys2Proof.Machine

/-! ### The trace of a transmission -/

namespace Sys2Proof.Machine

@[simp] theorem sinceAccept_accept (c : Nat) (w : Word) (es : List Event) :
    sinceAccept (⟨c, .accept w⟩ :: es) = some (w, []) := rfl
@[simp] theorem sinceAccept_carrierWrite (c : Nat) (on : Bool) (es : List Event) :
    sinceAccept (⟨c, .carrierWrite on⟩ :: es) = (sinceAccept es).map fun p => (p.1, p.2 ++ [on]) := rfl
@[simp] theorem sinceAccept_timerRead (c : Nat) (t : Micros) (es : List Event) :
    sinceAccept (⟨c, .timerRead t⟩ :: es) = sinceAccept es := rfl
@[simp] theorem sinceAccept_txDone (c : Nat) (es : List Event) : sinceAccept (⟨c, .txDone⟩ :: es) = sinceAccept es := rfl

@[simp] theorem readsSinceAccept_accept (c : Nat) (w : Word) (es : List Event) :
    readsSinceAccept (⟨c, .accept w⟩ :: es) = 0 := rfl
@[simp] theorem readsSinceAccept_carrierWrite (c : Nat) (on : Bool) (es : List Event) :
    readsSinceAccept (⟨c, .carrierWrite on⟩ :: es) = readsSinceAccept es := rfl
@[simp] theorem readsSinceAccept_timerRead (c : Nat) (t : Micros) (es : List Event) :
    readsSinceAccept (⟨c, .timerRead t⟩ :: es) = readsSinceAccept es + 1 := rfl
@[simp] theorem readsSinceAccept_txDone (c : Nat) (es : List Event) :
    readsSinceAccept (⟨c, .txDone⟩ :: es) = readsSinceAccept es := rfl

/-- The level of each index (41_modulator.md R88). -/
theorem getElem?_txLevels (w : Word) (k : Fin 211) : (txLevels w)[k.val]? = some (levelOf w (phaseOf k)) := by
  rw [txLevels, List.getElem?_map, getElem?_txPhases_eq_phaseAt]
  rfl

@[simp] theorem length_txLevels (w : Word) : (txLevels w).length = 211 := by simp [txLevels]

theorem take_txLevels_succ (w : Word) (k : Fin 211) :
    (txLevels w).take (k.val + 1) = (txLevels w).take k.val ++ [levelOf w (phaseOf k)] := by
  rw [List.take_add_one, getElem?_txLevels]
  rfl

/-- The record is of a phase, so an idle block has none. -/
theorem State.waveOnTrace_of_idle {s : State} (hseq : s.seq = .idle) : s.WaveOnTrace := by
  intro k w hk
  rw [hseq] at hk
  cases hk

theorem State.WaveOnTrace.of_sameBlock {s u : State} (h : s.WaveOnTrace) (hsame : s.SameBlock u) : u.WaveOnTrace := by
  intro k w hseq hfr
  rw [hsame.trace]
  exact h k w (hsame.seq ▸ hseq) (hsame.fr ▸ hfr)

/-- The events of an acceptance (41_modulator.md R97, R93). -/
theorem State.accept_trace (s : State) (w : Word) :
    (s.accept w).trace = ⟨(s.accept w).clock, .timerRead (s.accept w).timer⟩ ::
      ⟨s.clock + s.drawAt 0 + s.drawAt 1, .carrierWrite true⟩ :: ⟨s.clock + s.drawAt 0, .accept w⟩ :: s.trace := by
  have h : s.drawAt 1 = s.tick.drawAt 0 := (s.tick_drawAt 0).symm
  rw [h]
  rfl

/-- An acceptance writes the first level and reads the start of its phase (41_modulator.md R97). -/
theorem State.accept_waveOnTrace (s : State) (w : Word) : (s.accept w).WaveOnTrace := by
  intro k v hk hv
  cases hk
  cases hv
  have hfirst : (txLevels w).take 1 = [true] := take_txLevels_succ w 0
  rw [State.accept_trace]
  simp [hfirst]

theorem State.WaveOnTrace.move {u t : State} (h : u.WaveOnTrace) (hmove : u.Move t) : t.WaveOnTrace := by
  cases hmove with
  | stay => exact h
  | accept w => exact u.accept_waveOnTrace w
  | wait k t0 hseq =>
    intro j w hj hfr
    obtain ⟨hwave, hreads⟩ := h j w hj hfr
    rw [State.timerRead_trace, sinceAccept_timerRead, readsSinceAccept_timerRead]
    exact ⟨hwave, by omega⟩
  | begin k t0 hnext hseq =>
    intro j w hj hfr
    cases hj
    rw [State.beginPhase_fr, State.timerRead_fr] at hfr
    obtain ⟨hwave, hreads⟩ := h k w hseq hfr
    rw [hfr]
    constructor
    · simp only [State.beginPhase_trace, State.timerRead_trace, State.carrierWrite_trace, sinceAccept_timerRead,
        sinceAccept_carrierWrite, hwave, Option.map_some, Option.getD_some]
      rw [take_txLevels_succ w ⟨k.val + 1, hnext⟩]
    · simp only [State.beginPhase_trace, State.timerRead_trace, State.carrierWrite_trace, readsSinceAccept_timerRead,
        readsSinceAccept_carrierWrite]
      omega
  | finish => exact State.waveOnTrace_of_idle (State.finish_seq _)

/-- Settles O42: a poll adds a read to the record, one that ends a phase adds the next level with its start read too, and an
acceptance starts a record of its own. -/
theorem stepKeepsTheWaveOnTheTrace : Obligations.StepKeepsTheWaveOnTheTrace := by
  intro s t _ hwave hstep
  obtain ⟨u, hsame, ⟨-, rfl⟩ | ⟨-, hmove⟩⟩ := step_move hstep
  · exact State.waveOnTrace_of_idle rfl
  · exact (hwave.of_sameBlock hsame).move hmove

/-- The poll that ends phase 210 adds one read and the off write to the record of all 211 phases (41_modulator.md R103,
R110). -/
theorem State.WaveOnTrace.finish {u : State} {k : Fin 211} {w : Word} (h : u.WaveOnTrace) (hseq : u.seq = .run k)
    (hlast : k.val = 210) (hfr : u.fr = some w) :
    sinceAccept u.timerRead.finish.trace = some (w, txLevels w ++ [false]) ∧
      422 ≤ readsSinceAccept u.timerRead.finish.trace := by
  obtain ⟨hsince, hreads⟩ := h k w hseq hfr
  have hall : (txLevels w).take (k.val + 1) = txLevels w := List.take_of_length_le (by rw [length_txLevels, hlast])
  constructor
  · simp [hsince, hall]
  · simp only [State.finish_trace, State.carrierWrite_trace, State.timerRead_trace, readsSinceAccept_txDone,
      readsSinceAccept_carrierWrite, readsSinceAccept_timerRead]
    omega

/-- Settles O43: only the poll that ends phase 210 leads from a running phase to IDLE without RESET. -/
theorem endedTransmissionEmittedEveryPhase : Obligations.EndedTransmissionEmittedEveryPhase := by
  intro s t w hinv hwave hfr hrun hrelease hstep hidle
  obtain ⟨u, hsame, ⟨hreset, -⟩ | ⟨-, hmove⟩⟩ := step_move hstep
  · rw [hrelease] at hreset
    cases hreset
  · rw [← hsame.seq] at hrun
    cases hmove with
    | stay => exact absurd hidle hrun
    | accept w hb => exact absurd ((hinv.of_sameBlock hsame).seq_of_not_busy hb) hrun
    | wait k t0 hseq => exact absurd hidle hrun
    | begin => cases hidle
    | finish k t0 hlast hseq =>
      obtain ⟨hsince, hreads⟩ := (hwave.of_sameBlock hsame).finish hseq hlast (hsame.fr.trans hfr)
      exact ⟨State.finish_busy _, State.finish_carrier _, State.finish_txDone _, hsince, by simp, hreads⟩

/-- Settles O44: a running block is BUSY, so that its moves are those of a poll, and no poll writes FR. -/
theorem runningTransmissionKeepsFrAndGoesOn : Obligations.RunningTransmissionKeepsFrAndGoesOn := by
  intro s t k hinv hseq hrelease hstep
  obtain ⟨u, hsame, ⟨hreset, -⟩ | ⟨-, hmove⟩⟩ := step_move hstep
  · rw [hrelease] at hreset
    cases hreset
  · rw [← hsame.seq] at hseq
    rw [← hsame.fr]
    cases hmove with
    | stay => exact ⟨rfl, .inl hseq⟩
    | accept w hb =>
      obtain ⟨hbusy, -⟩ := (hinv.of_sameBlock hsame).of_run hseq
      rw [hb] at hbusy
      cases hbusy
    | wait => exact ⟨State.timerRead_fr u, .inl hseq⟩
    | begin j t0 hnext hj =>
      cases hseq.symm.trans hj
      exact ⟨by rw [State.beginPhase_fr, State.timerRead_fr], .inr (.inl ⟨hnext, State.beginPhase_seq _ _ _⟩)⟩
    | finish j t0 hlast hj =>
      cases hseq.symm.trans hj
      exact ⟨by rw [State.finish_fr, State.timerRead_fr], .inr (.inr ⟨hlast, State.finish_seq _⟩)⟩

/-- Settles O40: the reset state is idle and dark, with an empty trace. -/
theorem resetMeetsTheInvariants : Obligations.ResetMeetsTheInvariants := by
  have hseq : State.reset.seq = .idle := rfl
  have norun {P : Fin 211 → Prop} (k : Fin 211) (hk : State.reset.seq = .run k) : P k := by
    rw [hseq] at hk
    cases hk
  exact ⟨State.inv_of_idle hseq rfl rfl, State.waveOnTrace_of_idle hseq, List.pairwise_singleton _ _, norun,
    fun _ => norun⟩

end Sys2Proof.Machine

/-! ### The step by what its fetch finds -/

namespace Sys2Proof.Machine

/-- What a step does with what its fetch finds; `step` is this of its fetch (`step_of_released`). -/
def Fetched.run : Fetched → Host.Outcome State Fault Refusal
  | .word slot bits t =>
    match decode slot bits with
    | .ok i => exec i t
    | .error e => t.unnamed slot bits e
  | .quiet t => .next t
  | .fault f => .fault f
  | .refuse r => .refused r

theorem Fetched.run_word_of_ok {slot : Slot} {bits : Word} {i : Instr} (t : State) (h : decode slot bits = .ok i) :
    (Fetched.word slot bits t).run = exec i t := by
  simp only [Fetched.run, h]

theorem Fetched.run_word_of_error {slot : Slot} {bits : Word} {e : DecodeError} (t : State)
    (h : decode slot bits = .error e) : (Fetched.word slot bits t).run = t.unnamed slot bits e := by
  simp only [Fetched.run, h]

@[simp] theorem Fetched.run_quiet (t : State) : (Fetched.quiet t).run = .next t := rfl
@[simp] theorem Fetched.run_refuse (r : Refusal) : (Fetched.refuse r).run = .refused r := rfl

/-- With RESET released a step is what it does with its fetch (60_exceptions.md R119). -/
theorem step_of_released {s : State} (h : s.resetLevel = false) : step s = s.nextResetIn.fetch.run := by
  have hfalse : ¬ s.resetLevel = true := by simp [h]
  rw [step, if_neg hfalse]
  cases s.nextResetIn.fetch with
  | word slot bits t => cases hd : decode slot bits <;> simp only [Fetched.run, hd]
  | quiet | fault | refuse => rfl

/-- RESET comes before every other event of a step (60_exceptions.md R119). -/
theorem step_of_reset {s : State} (h : s.resetLevel = true) : step s = .next s.nextResetIn.applyReset := by
  rw [step, if_pos h]

/-- Settles O56: the fetched bits decode, and the step runs what they decode to. -/
theorem stepRunsTheDecodedInstruction : Obligations.StepRunsTheDecodedInstruction := by
  intro s t slot bits i hrelease hfetch hdecode
  rw [step_of_released hrelease, hfetch, Fetched.run_word_of_ok t hdecode]

end Sys2Proof.Machine

/-! ### Faults -/

namespace Sys2Proof.Machine

theorem State.SameBlock.of_fetch {s t : State} {slot : Slot} {bits : Word} (h : s.fetch = .word slot bits t) :
    s.SameBlock t := by
  obtain ⟨ops, p, x, rfl⟩ := State.fetch_state (.inl ⟨slot, bits, h⟩)
  exact ⟨rfl, rfl, rfl, rfl, rfl, rfl, rfl, rfl, rfl⟩

/-- Bits that name no operation never fault. -/
theorem State.unnamed_not_fault (s : State) (slot : Slot) (bits : Word) (e : DecodeError) (f : Fault) :
    s.unnamed slot bits e ≠ .fault f := by
  obtain ⟨r, h⟩ | ⟨x, h⟩ := s.unnamed_cases slot bits e <;> rw [h] <;> nofun

/-- The sequencer's turn faults only in a running phase, on a read of FR while it holds no value. -/
theorem State.fetchSequencer_fault {s : State} {f : Fault} (h : s.fetchSequencer = .fault f) :
    ∃ k, s.seq = .run k ∧ s.fr = none := by
  unfold State.fetchSequencer at h
  split at h
  · rename_i k hseq
    split at h
    · rename_i g hg
      obtain ⟨-, hfr, -⟩ := State.frameFor_error hg
      exact ⟨k, hseq, hfr⟩
    · cases h
  · split at h <;> cases h

/-- A host operation faults only where it leaves the sequencer the step. -/
theorem State.fetchHost_fault {s : State} {op : HostOp} {f : Fault} (h : s.fetchHost op = .fault f) :
    s.fetchSequencer = .fault f := by
  cases op with
  | idle => exact h
  | encode | transmit | setField | driveTxFrame => cases h
  | transmitFrameOut =>
    simp only [State.fetchHost] at h
    split at h <;> cases h
  | configureCarrier | foreignSetCarrier =>
    simp only [State.fetchHost, State.foreignAtCarrier] at h
    split at h <;> cases h

theorem State.fetch_fault {s : State} {f : Fault} (h : s.fetch = .fault f) : ∃ k, s.seq = .run k ∧ s.fr = none := by
  unfold State.fetch at h
  split at h
  · exact State.fetchSequencer_fault h
  · split at h
    · exact State.fetchSequencer_fault h
    · obtain ⟨k, hseq, hfr⟩ := State.fetchSequencer_fault (State.fetchHost_fault h)
      exact ⟨k, hseq, hfr⟩

/-- A step faults only in a running phase, on a read of FR or T0 while it holds no value (10_state.md R28). -/
theorem step_fault {s : State} {f : Fault} (h : step s = .fault f) :
    ∃ k, s.seq = .run k ∧ (s.fr = none ∨ s.t0 = none) := by
  cases hr : s.resetLevel with
  | true => cases (step_of_reset hr).symm.trans h
  | false =>
    rw [step_of_released hr] at h
    cases hfetch : s.nextResetIn.fetch with
    | word slot bits u =>
      have hsame := State.SameBlock.of_fetch hfetch
      rw [hfetch] at h
      cases hd : decode slot bits with
      | ok i =>
        rw [Fetched.run_word_of_ok u hd] at h
        obtain ⟨k, hseq, ⟨-, hfr⟩ | ⟨-, ht0⟩⟩ := exec_fault h
        · exact ⟨k, hsame.seq ▸ hseq, .inl (hsame.fr ▸ hfr)⟩
        · exact ⟨k, hsame.seq ▸ hseq, .inr (hsame.t0 ▸ ht0)⟩
      | error e =>
        rw [Fetched.run_word_of_error u hd] at h
        exact absurd h (u.unnamed_not_fault slot bits e f)
    | fault g =>
      obtain ⟨k, hseq, hfr⟩ := State.fetch_fault hfetch
      exact ⟨k, hseq, .inl hfr⟩
    | quiet u => rw [hfetch] at h; cases h
    | refuse r => rw [hfetch] at h; cases h

/-- Settles O45: a step faults only in a running phase without a value in FR or T0, where the invariant does not hold. -/
theorem noStepFaults : Obligations.NoStepFaults := by
  refine ⟨fun s f hinv hstep => ?step, fun s i f h => ?exec⟩
  case step =>
    obtain ⟨k, hseq, hnone⟩ := step_fault hstep
    obtain ⟨w, t0, hfr, ht0, -⟩ := hinv.running k hseq
    simp [hfr, ht0] at hnone
  case exec =>
    obtain ⟨-, -, hread⟩ := exec_fault h
    exact hread

end Sys2Proof.Machine

/-! ### RESET -/

namespace Sys2Proof.Machine

/-- Settles O53: the step is RESET, which writes the block and the request line and no other field. -/
theorem resetTakesEffectInAnyState : Obligations.ResetTakesEffectInAnyState := by
  intro s hreset
  refine ⟨_, step_of_reset hreset, ?_⟩
  simp [State.carrierEn, State.readRep]

/-- Settles O54: RESET records one event, itself, and the levels before it are those of the running transmission's record. -/
theorem resetAbortsATransmission : Obligations.ResetAbortsATransmission := by
  intro s w hinv hwave hbusy hfr hreset
  obtain ⟨k, hseq⟩ : ∃ k, s.seq = .run k := by
    cases hseq : s.seq with
    | idle => exact absurd hseq (hinv.busy_iff.1 hbusy)
    | run k => exact ⟨k, rfl⟩
  obtain ⟨hsince, -⟩ := hwave k w hseq hfr
  exact ⟨_, step_of_reset hreset, rfl, rfl, rfl, rfl, rfl, _, hsince, List.take_prefix _ _⟩

end Sys2Proof.Machine

/-! ### The clock -/

namespace Sys2Proof.Machine

theorem State.InOrder.of_sameBlock {s u : State} (h : s.InOrder) (hsame : s.SameBlock u) : u.InOrder := by
  rw [State.InOrder, hsame.clock, hsame.trace]
  exact h

/-- An event happens no earlier than those before it (60_exceptions.md R124). -/
theorem State.InOrder.event {s : State} (h : s.InOrder) (e : EventKind) : (s.tick.record e).InOrder := by
  obtain ⟨hnow, hpast⟩ := List.pairwise_cons.1 h
  have hlater : ∀ c ∈ s.trace.map Event.clock, c ≤ s.tick.clock := fun c hc => (hnow c hc).trans s.clock_le_tick
  exact List.pairwise_cons.2 ⟨List.forall_mem_cons.2 ⟨le_rfl, hlater⟩, List.pairwise_cons.2 ⟨hlater, hpast⟩⟩

theorem State.InOrder.carrierWrite {s : State} (h : s.InOrder) (on : Bool) : (s.carrierWrite on).InOrder := h.event _

theorem State.InOrder.timerRead {s : State} (h : s.InOrder) : s.timerRead.InOrder := h.event _

theorem State.InOrder.beginPhase {s : State} (h : s.InOrder) (w : Word) (k : Fin 211) : (s.beginPhase w k).InOrder :=
  (h.carrierWrite (levelOf w (phaseOf k))).timerRead

theorem State.InOrder.finish {s : State} (h : s.InOrder) : s.finish.InOrder :=
  State.InOrder.event (s := { (s.carrierWrite false).clearBusy with seq := .idle }) (h.carrierWrite false) .txDone

theorem State.InOrder.accept {s : State} (h : s.InOrder) (w : Word) : (s.accept w).InOrder := by
  have hrequest : ({ s with txFrame := w, txReq := false } : State).InOrder := h
  exact State.InOrder.beginPhase (hrequest.event (.accept w)) w 0

theorem State.InOrder.applyReset {s : State} (h : s.InOrder) : s.applyReset.InOrder :=
  State.InOrder.event
    (s := { s.clearBusy with seq := .idle, fr := none, t0 := none, carrier := false, txReq := false }) h .reset

theorem State.InOrder.move {u t : State} (h : u.InOrder) (hmove : u.Move t) : t.InOrder := by
  cases hmove with
  | stay => exact h
  | accept w => exact h.accept w
  | wait => exact h.timerRead
  | begin => exact h.timerRead.beginPhase _ _
  | finish => exact h.timerRead.finish

/-- Past the listed draws a draw moves the clock again (60_exceptions.md R124; log 6). -/
theorem State.exists_drawAt_ne_zero (s : State) (m : Nat) : ∃ n, m ≤ n ∧ s.drawAt n ≠ 0 := by
  obtain ⟨n, hn, hmoves⟩ := Config.fairDraw_moves_again Config.timerStall Config.timerMove (s.draws + s.timeIn.length + m) 0 0
  refine ⟨n - s.draws, by omega, ?_⟩
  rw [State.drawAt_free (by omega), Nat.add_sub_cancel' (by omega)]
  exact hmoves

theorem State.moves_succ (s : State) (n : Nat) : s.moves (n + 1) = s.moves n + if s.drawAt n ≠ 0 then 1 else 0 := by
  simp [State.moves, List.range_succ, List.countP_append, List.countP_singleton]

theorem State.moves_mono (s : State) : Monotone s.moves :=
  monotone_nat_of_le_succ fun n => by rw [State.moves_succ]; exact Nat.le_add_right _ _

theorem State.moves_le (s : State) (n : Nat) : s.moves n ≤ n :=
  List.countP_le_length.trans_eq List.length_range

theorem State.clockAfter_succ (s : State) (n : Nat) : s.clockAfter (n + 1) = s.clockAfter n + s.drawAt n := by
  simp [State.clockAfter, List.range_succ, Nat.add_assoc]

/-- The clock moves any number of times (60_exceptions.md R124). -/
theorem State.exists_le_moves (s : State) (m : Nat) : ∃ n, m ≤ s.moves n := by
  induction m with
  | zero => exact ⟨0, Nat.zero_le _⟩
  | succ m ih =>
    obtain ⟨n, hn⟩ := ih
    obtain ⟨n', hle, hne⟩ := s.exists_drawAt_ne_zero n
    refine ⟨n' + 1, ?_⟩
    rw [State.moves_succ, if_pos hne]
    exact Nat.succ_le_succ (hn.trans (s.moves_mono hle))

/-- Each move of the clock is by a microsecond at least. -/
theorem State.moves_le_clockAfter (s : State) (n : Nat) : s.clock + s.moves n ≤ s.clockAfter n := by
  induction n with
  | zero => exact le_rfl
  | succ n ih =>
    rw [State.moves_succ, State.clockAfter_succ]
    split <;> omega

/-- Settles O48: an event's clock is the clock before it and a draw, and of the free draws always another one moves it. -/
theorem clockIsMonotonicAndFair : Obligations.ClockIsMonotonicAndFair := by
  refine ⟨fun s t horder hstep => ?_, fun s => ⟨fun bound => ?_, s.exists_le_moves⟩⟩
  · obtain ⟨u, hsame, ⟨-, rfl⟩ | ⟨-, hmove⟩⟩ := step_move hstep
    · exact (horder.of_sameBlock hsame).applyReset
    · exact (horder.of_sameBlock hsame).move hmove
  · obtain ⟨n, hn⟩ := s.exists_le_moves (bound + 1)
    have hclock := s.moves_le_clockAfter n
    exact ⟨n, by omega⟩

/-- Settles O47: both operations are one tick and one event, and `CarrierWrite` sets the level besides. -/
theorem timerReadAndCarrierWriteEffects : Obligations.TimerReadAndCarrierWriteEffects := by
  intro s on
  refine ⟨⟨rfl, State.timerRead_seq s, State.timerRead_fr s, State.timerRead_t0 s, State.timerRead_carrier s,
    State.timerRead_busy s⟩, State.carrierWrite_carrier s on, State.carrierWrite_carrier s on, State.carrierWrite_seq s on,
    State.carrierWrite_fr s on, State.carrierWrite_t0 s on, State.carrierWrite_busy s on, State.carrierWrite_trace s on⟩

end Sys2Proof.Machine

/-! ### When a phase begins and ends -/

namespace Sys2Proof.Machine

/-! The clock after each operation, by the draws of the state it starts in. -/

theorem State.timerRead_clock_eq (s : State) : s.timerRead.clock = s.clock + s.drawAt 0 := rfl

theorem State.beginPhase_clock_eq (s : State) (w : Word) (k : Fin 211) :
    (s.beginPhase w k).clock = s.clock + s.drawAt 0 + s.drawAt 1 := by
  rw [← s.tick_drawAt 0]
  rfl

theorem State.finish_clock_eq (s : State) : s.finish.clock = s.clock + s.drawAt 0 + s.drawAt 1 := by
  rw [← s.tick_drawAt 0]
  rfl

theorem State.accept_clock_eq (s : State) (w : Word) :
    (s.accept w).clock = s.clock + s.drawAt 0 + s.drawAt 1 + s.drawAt 2 := by
  rw [← s.tick_drawAt 1, ← s.tick_drawAt 0, ← s.tick.tick_drawAt 0]
  rfl

/-! When `BeginPhase` and `Finish` write the carrier (41_modulator.md R93, R96). -/

theorem State.beginPhase_lastWriteAt (s : State) (w : Word) (k : Fin 211) :
    lastWriteAt (s.beginPhase w k).trace = some (s.clock + s.drawAt 0) := rfl

theorem State.finish_lastWriteAt (s : State) : lastWriteAt s.finish.trace = some (s.clock + s.drawAt 0) := rfl

/-- T0 is the reading of the clock that `BeginPhase` leaves (41_modulator.md R93). -/
theorem State.beginPhase_t0_eq (s : State) (w : Word) (k : Fin 211) :
    (s.beginPhase w k).t0 = some (BitVec.ofNat 64 (s.beginPhase w k).clock) := rfl

theorem State.PhaseStarted.of_sameBlock {s u : State} (h : s.PhaseStarted) (hsame : s.SameBlock u) : u.PhaseStarted := by
  rw [State.PhaseStarted, hsame.seq, hsame.trace, hsame.clock, hsame.t0]
  exact h

/-- A phase just begun was written and then read (41_modulator.md R93). -/
theorem State.beginPhase_phaseStarted (s : State) (w : Word) (k : Fin 211) : (s.beginPhase w k).PhaseStarted := by
  intro j hj
  refine ⟨_, _, s.beginPhase_lastWriteAt w k, ?_, le_rfl, s.beginPhase_t0_eq w k⟩
  rw [State.beginPhase_clock_eq]
  exact Nat.le_add_right _ _

theorem State.PhaseStarted.move {u t : State} (h : u.PhaseStarted) (hmove : u.Move t) : t.PhaseStarted := by
  cases hmove with
  | stay => exact h
  | accept w => exact State.beginPhase_phaseStarted _ w 0
  | wait =>
    intro j hj
    obtain ⟨cw, c0, hwrite, hle, hnow, ht0⟩ := h j hj
    exact ⟨cw, c0, hwrite, hle, hnow.trans u.clock_le_tick, ht0⟩
  | begin => exact State.beginPhase_phaseStarted _ _ _
  | finish =>
    intro j hj
    cases hj

/-- Settles O49: `BeginPhase` writes and then reads, and a poll that leaves the phase running only lets time pass. -/
theorem stepKeepsPhaseStarted : Obligations.StepKeepsPhaseStarted := by
  intro s t _ hstarted hstep
  obtain ⟨u, hsame, ⟨-, rfl⟩ | ⟨-, hmove⟩⟩ := step_move hstep
  · intro k hk
    cases hk
  · exact (hstarted.of_sameBlock hsame).move hmove

/-- A phase that a poll ends has lasted its duration from its start read, in true time (41_modulator.md R104, R107). -/
theorem le_clock_of_phaseEnded {u : State} {c0 d : Nat} (hnow : c0 ≤ u.clock)
    (h : phaseEnded (BitVec.ofNat 64 c0) u.timerRead.timer d = true) : c0 + d ≤ u.timerRead.clock := by
  have hle : c0 ≤ u.timerRead.clock := hnow.trans u.clock_le_tick
  have helapsed := ((phaseEnded_iff _ _ _).1 h).trans (elapsed64_le c0 u.timerRead.clock hle)
  omega

/-- The move that leaves a running phase is the poll that ends it: it writes the carrier, one draw after its own read. -/
theorem State.Move.ends {u t : State} {k : Fin 211} (hmove : u.Move t) (hinv : u.Inv) (hseq : u.seq = .run k)
    (hne : t.seq ≠ .run k) : ∃ t0, u.t0 = some t0 ∧ phaseEnded t0 u.timerRead.timer (durOf (phaseOf k)) = true ∧
      lastWriteAt t.trace = some (u.timerRead.clock + u.timerRead.drawAt 0) := by
  cases hmove with
  | stay => exact absurd hseq hne
  | accept w hidle =>
    obtain ⟨hbusy, -⟩ := hinv.of_run hseq
    rw [hidle] at hbusy
    cases hbusy
  | wait => exact absurd hseq hne
  | begin j t0 hnext hj ht0 hended =>
    cases hseq.symm.trans hj
    exact ⟨t0, ht0, hended, State.beginPhase_lastWriteAt _ _ _⟩
  | finish j t0 hlast hj ht0 hended =>
    cases hseq.symm.trans hj
    exact ⟨t0, ht0, hended, State.finish_lastWriteAt _⟩

/-- Settles O50: the next write comes after the poll that ends the phase, which comes a duration after the start read, which
comes after the phase's own write. -/
theorem phaseLastsAtLeastItsDuration : Obligations.PhaseLastsAtLeastItsDuration := by
  intro s t k hinv hstarted hseq hrelease hstep hne
  obtain ⟨u, hsame, ⟨hreset, -⟩ | ⟨-, hmove⟩⟩ := step_move hstep
  · rw [hrelease] at hreset
    cases hreset
  · rw [← hsame.seq] at hseq
    obtain ⟨cw, c0, hwrite, hle, hnow, ht0⟩ := (hstarted.of_sameBlock hsame) k hseq
    obtain ⟨t0, ht0', hended, hwrite'⟩ := hmove.ends (hinv.of_sameBlock hsame) hseq hne
    cases ht0.symm.trans ht0'
    have hpoll := le_clock_of_phaseEnded hnow hended
    exact ⟨cw, _, hsame.trace ▸ hwrite, hwrite', by omega⟩

end Sys2Proof.Machine

/-! ### Overshoot -/

namespace Sys2Proof.Machine

theorem durOf_pos (p : Ph) : 0 < durOf p := by
  cases p <;> simp [durOf, tPreOn, tPreOff, tHalf, tStop]

/-- No phase is longer than the stop pulse (41_modulator.md R88). -/
theorem durOf_le (p : Ph) : durOf p ≤ 4000 := by
  cases p <;> simp [durOf, tPreOn, tPreOff, tHalf, tStop]

/-- Where the draw does not reach the counter's range, a poll that leaves its phase running came before the phase's end in
true time too (41_modulator.md R107; log 7). -/
theorem clock_lt_of_not_phaseEnded {u : State} {c0 d : Nat} (hnow : c0 ≤ u.clock) (hbefore : u.clock < c0 + d)
    (hd : d ≤ 4000) (hdraw : u.drawAt 0 < 2 ^ 63)
    (h : phaseEnded (BitVec.ofNat 64 c0) u.timerRead.timer d = false) : u.timerRead.clock < c0 + d := by
  have hclock := u.timerRead_clock_eq
  have helapsed : (elapsed64 (BitVec.ofNat 64 c0) u.timerRead.timer).toNat = u.timerRead.clock - c0 :=
    toNat_elapsed64_ofNat (by omega) (by omega)
  have hearly : ¬ d ≤ u.timerRead.clock - c0 := by
    rw [← helapsed, ← phaseEnded_iff, h]
    decide
  omega

theorem State.OnTime.of_sameBlock {gap : Nat} {s u : State} (h : s.OnTime gap) (hsame : s.SameBlock u) : u.OnTime gap := by
  rw [State.OnTime, hsame.seq, hsame.trace, hsame.clock, hsame.t0]
  exact h

theorem State.DrawsWithin.of_sameBlock {gap n : Nat} {s u : State} (h : s.DrawsWithin gap n) (hsame : s.SameBlock u) :
    u.DrawsWithin gap n := fun i hi => (hsame.drawAt i).trans_le (h i hi)

/-- A phase just begun is on time where its start read comes within `gap` of its write. -/
theorem State.beginPhase_onTime {gap : Nat} {s : State} (w : Word) (k : Fin 211) (hdraw : s.drawAt 1 ≤ gap) :
    (s.beginPhase w k).OnTime gap := by
  intro j hj
  refine ⟨_, _, s.beginPhase_lastWriteAt w k, ?_, ?_, le_rfl, Nat.lt_add_of_pos_right (durOf_pos _),
    s.beginPhase_t0_eq w k⟩
  · rw [State.beginPhase_clock_eq]
    exact Nat.le_add_right _ _
  · rw [State.beginPhase_clock_eq]
    exact Nat.add_le_add_left hdraw _

theorem State.OnTime.move {gap : Nat} {u t : State} (hgap : gap < 2 ^ 63) (h : u.OnTime gap) (hdraws : u.DrawsWithin gap 3)
    (hmove : u.Move t) : t.OnTime gap := by
  cases hmove with
  | stay => exact h
  | accept w =>
    refine State.beginPhase_onTime w 0 ?_
    calc _ = u.drawAt 2 := u.tick_drawAt 1
      _ ≤ gap := hdraws 2 (by decide)
  | wait k t0 hseq ht0 hpoll =>
    intro j hj
    obtain ⟨cw, c0, hwrite, hle, hstart, hnow, hbefore, ht0'⟩ := h j hj
    cases hseq.symm.trans hj
    cases ht0.symm.trans ht0'
    have hlt := clock_lt_of_not_phaseEnded hnow hbefore (durOf_le _) ((hdraws 0 (by decide)).trans_lt hgap) hpoll
    exact ⟨cw, c0, hwrite, hle, hstart, hnow.trans u.clock_le_tick, hlt, ht0⟩
  | begin =>
    refine State.beginPhase_onTime _ _ ?_
    calc _ = u.drawAt 2 := u.timerRead_drawAt 1
      _ ≤ gap := hdraws 2 (by decide)
  | finish =>
    intro j hj
    cases hj

/-- Settles O51: at the last poll before it the phase had not run out, so that the next write is at most one gap late by the
start read, one by the poll that ends the phase and one by itself. -/
theorem overshootIsAtMostThreeGaps : Obligations.OvershootIsAtMostThreeGaps := by
  intro s t gap hgap hinv hontime hdraws hstep
  obtain ⟨u, hsame, ⟨hreset, rfl⟩ | ⟨-, hmove⟩⟩ := step_move hstep
  · refine ⟨fun k hk => ?_, fun k _ hrelease => ?_⟩
    · cases hk
    · rw [hrelease] at hreset
      cases hreset
  · have hontime := hontime.of_sameBlock hsame
    have hdraws := hdraws.of_sameBlock hsame
    refine ⟨hontime.move hgap hdraws hmove, fun k hseq _ hne => ?_⟩
    rw [← hsame.seq] at hseq
    obtain ⟨cw, c0, hwrite, -, hstart, hnow, hbefore, ht0⟩ := hontime k hseq
    obtain ⟨t0, -, -, hwrite'⟩ := hmove.ends (hinv.of_sameBlock hsame) hseq hne
    refine ⟨cw, _, hsame.trace ▸ hwrite, hwrite', ?_⟩
    have hpoll : u.drawAt 0 ≤ gap := hdraws 0 (by decide)
    have hwritten : u.drawAt 1 ≤ gap := hdraws 1 (by decide)
    have hdraw : u.timerRead.drawAt 0 = u.drawAt 1 := u.timerRead_drawAt 0
    rw [State.timerRead_clock_eq, hdraw]
    omega

end Sys2Proof.Machine

/-! ### The commands' words, and the frame-field rows -/

namespace Sys2Proof.Machine

/-- Settles O6: CMD carries the Command, and TEMP_POLICY lets it pass, so that FRAME_OUT is its word. -/
theorem encodeGivesThePackedWord : Obligations.EncodeGivesThePackedWord := by
  intro s c hpass
  have hword : encodeCommand s.tempPolicy c = .ok (commandWord c) := (encodeCommand_ok_iff _ _ _).2 ⟨hpass.symm, rfl⟩
  exact ⟨exec_encode_of_ok hword, (frameOut_driveCmd_packCmd s c).trans hword⟩

/-- ENCODE that completes drives CMD and does nothing else (40_encoder.md R69). -/
theorem exec_encode_next {s t : State} {c : Command} (h : exec (.encode c) s = .next t) : t = s.driveCmd (packCmd c) := by
  cases hword : encodeCommand s.tempPolicy c with
  | ok w => exact (Host.Outcome.next.inj ((exec_encode_of_ok hword).symm.trans h)).symm
  | error r => cases (exec_encode_of_error hword).symm.trans h

/-- Settles O8: the next state is the old one with CMD driven. -/
theorem encodeChangesOnlyCmd : Obligations.EncodeChangesOnlyCmd := by
  intro s t c h
  obtain rfl := exec_encode_next h
  simp

/-- A placed field lies within the mask of its bits. -/
theorem placeAt_and_mask {o n : Nat} (hfits : o + n ≤ 32) (x : BitVec n) :
    placeAt 32 o x &&& placeAt 32 o (BitVec.allOnes n) = placeAt 32 o x :=
  (and_mask_eq_iff_extractLsb'_eq _ hfits x).2 (extractLsb'_placeAt_same x hfits)

/-- A field placed outside the bits that are kept is lost. -/
theorem placeAt_and_eq_zero {o n : Nat} (hfits : o + n ≤ 32) {keep : Word}
    (h : placeAt 32 o (BitVec.allOnes n) &&& keep = 0) (x : BitVec n) : placeAt 32 o x &&& keep = 0 := by
  rw [← placeAt_and_mask hfits x, BitVec.and_assoc, h]
  exact BitVec.and_zero

/-- An admitted temperature's code stands in bits 5:2 of its field, and so in bits 14:11 of the word (30_encoding.md R58). -/
theorem placeAt_tempCode_of_admitted {c : Command} (h : c.admitted = true) :
    placeAt 32 9 (tempCode c.temp) &&& ~~~0x7800 = 0 := by
  have hall : ∀ t : BitVec 8, decide (16 ≤ t.toNat) && decide (t.toNat ≤ 30) →
      placeAt 32 9 (tempCode t) &&& ~~~0x7800 = 0 := by decide
  exact hall c.temp h

/-- The bits of a command's word under a mask, field by field. -/
theorem commandWord_and (c : Command) (keep : Word) : commandWord c &&& keep =
    placeAt 32 0 (functionBit c.function) &&& keep ||| placeAt 32 1 (modeCode c.mode) &&& keep |||
      placeAt 32 4 (fanCode (normaliseFan c.mode c.fan)) &&& keep ||| placeAt 32 9 (tempCode c.temp) &&& keep := by
  rw [commandWord, pack_eq_placeAt, BitVec.and_or_distrib_right, BitVec.and_or_distrib_right, BitVec.and_or_distrib_right]

theorem normaliseFan_low (m : Mode) : normaliseFan m .low = .low := by
  cases m <;> rfl

/-- Settles O17: a word is its four fields side by side, so that what one part of the Command decides is lost under the mask
of the others; the mode alone reaches into a second field, the fan's. -/
theorem fieldIsolation : Obligations.FieldIsolation := by
  intro c hc
  refine ⟨fun t ht => ?temp, fun f => ?function, fun a => ?fan, fun a hwater => ?water, fun m => ?mode, fun m hfan => ?modeOnly⟩
  case temp => rw [commandWord_and, commandWord_and, placeAt_tempCode_of_admitted hc, placeAt_tempCode_of_admitted ht]
  case function =>
    rw [commandWord_and, commandWord_and, placeAt_and_eq_zero (o := 0) (n := 1) (by decide) (by decide),
      placeAt_and_eq_zero (o := 0) (n := 1) (by decide) (by decide)]
  case fan =>
    rw [commandWord_and, commandWord_and, placeAt_and_eq_zero (o := 4) (n := 2) (by decide) (by decide),
      placeAt_and_eq_zero (o := 4) (n := 2) (by decide) (by decide)]
  case water => simp only [commandWord, hwater, normaliseFan_water]
  case mode =>
    have hmode := placeAt_and_eq_zero (o := 1) (n := 3) (keep := ~~~0x3E) (by decide) (by decide)
    have hfan := placeAt_and_eq_zero (o := 4) (n := 2) (keep := ~~~0x3E) (by decide) (by decide)
    simp only [commandWord_and, hmode, hfan]
  case modeOnly =>
    have hmode := placeAt_and_eq_zero (o := 1) (n := 3) (keep := ~~~0xE) (by decide) (by decide)
    have hsame : normaliseFan m c.fan = normaliseFan c.mode c.fan := by
      obtain ⟨hm, hmode⟩ | hlow := hfan
      · rw [normaliseFan_of_ne_water hm, normaliseFan_of_ne_water hmode]
      · rw [hlow, normaliseFan_low, normaliseFan_low]
    simp only [commandWord_and, hmode, hsame]

theorem exec_fieldRow {i : Instr} {mask value : Word} (h : FieldRow i mask value) (s : State) :
    exec i s = .next (s.placeField mask value) := by
  cases h <;> rfl

/-- A field row's value lies within its mask. -/
theorem fieldRow_value_and_mask {i : Instr} {mask value : Word} (h : FieldRow i mask value) : value &&& mask = value := by
  cases h with
  | temp code => exact placeAt_and_mask (o := 9) (by decide) code
  | _ => decide

/-- A field row matches by its mask and value, or, as TEMP does, matches every word (opcode_table.json). -/
theorem fieldRow_table {i : Instr} {mask value : Word} (h : FieldRow i mask value) :
    (rowMask i = mask ∧ rowMatch i = value) ∨ (rowMask i = 0 ∧ rowMatch i = 0) := by
  cases h with
  | temp code => exact .inr ⟨rfl, rfl⟩
  | _ => exact .inl ⟨rfl, rfl⟩

/-- Settles O18: `placeField` clears the bits under the mask and puts the value there, which lies within the mask. -/
theorem fieldRowsPlaceTheirValue : Obligations.FieldRowsPlaceTheirValue := by
  intro i mask value hrow s
  have hvalue := fieldRow_value_and_mask hrow
  have hfield : ((s.txFrame &&& ~~~mask) ||| value) &&& mask = value := by
    rw [BitVec.and_or_distrib_right, BitVec.and_assoc, BitVec.not_and_self, hvalue]
    simp
  have hrest : ((s.txFrame &&& ~~~mask) ||| value) &&& ~~~mask = s.txFrame &&& ~~~mask := by
    rw [BitVec.and_or_distrib_right, BitVec.and_assoc, BitVec.and_self, ← hvalue, BitVec.and_assoc, BitVec.and_not_self]
    simp
  refine ⟨_, exec_fieldRow hrow s, hfield, hrest, ?_⟩
  obtain ⟨hmask, hmatch⟩ | ⟨hmask, hmatch⟩ := fieldRow_table hrow
  · rw [hmask, hmatch, hfield]
  · rw [hmask, hmatch]
    exact BitVec.and_zero

/-- The table's row at a field has the field's mask, and is the row that places its value there. -/
theorem fieldRow_of_slot {i : Instr} {f : FrameField} (hslot : (encode i).1 = .field f) (htemp : f ≠ .tempCode) :
    rowMask i = fieldMask f ∧ FieldRow i (fieldMask f) (rowMatch i) := by
  cases i with
  | fnSetting => cases hslot; exact ⟨rfl, .fnSetting⟩
  | fnPower => cases hslot; exact ⟨rfl, .fnPower⟩
  | modeCool => cases hslot; exact ⟨rfl, .modeCool⟩
  | modeHeat => cases hslot; exact ⟨rfl, .modeHeat⟩
  | modeRecycle => cases hslot; exact ⟨rfl, .modeRecycle⟩
  | modeWater => cases hslot; exact ⟨rfl, .modeWater⟩
  | modeFan => cases hslot; exact ⟨rfl, .modeFan⟩
  | fanLow => cases hslot; exact ⟨rfl, .fanLow⟩
  | fanMed => cases hslot; exact ⟨rfl, .fanMed⟩
  | fanHi => cases hslot; exact ⟨rfl, .fanHi⟩
  | fanAuto => cases hslot; exact ⟨rfl, .fanAuto⟩
  | rsvd8to6 => cases hslot; exact ⟨rfl, .rsvd8to6⟩
  | rsvd31to17 => cases hslot; exact ⟨rfl, .rsvd31to17⟩
  | temp code => cases hslot; exact absurd rfl htemp
  | encode | transmit | preamble | sym1 | sym0 | trailer1 | trailer0 | stop => cases hslot

/-- The row that a word has at a field places the word's own value there (30_encoding.md R64; log 13). -/
theorem exec_of_decode_field {f : FrameField} {w : Word} {i : Instr} (h : decode (.field f) w = .ok i) (s : State) :
    exec i s = .next (s.placeField (fieldMask f) (w &&& fieldMask f)) := by
  by_cases htemp : f = .tempCode
  · subst htemp
    cases h
    have hvalue : placeAt 32 9 (w.extractLsb' 9 8) = w &&& fieldMask .tempCode := (and_placeAt_allOnes w 9 8).symm
    rw [← hvalue]
    exact exec_fieldRow (.temp _) s
  · have hslot := slot_of_decode h
    obtain ⟨hmask, hrow⟩ := fieldRow_of_slot hslot htemp
    have hmatch := (decode_field_row_iff w hslot htemp).1 h
    rw [← hmask, hmatch, hmask]
    exact exec_fieldRow hrow s

/-- The bits that a list of fields takes up. -/
def fieldsMask (fs : List FrameField) : Word := fs.foldr (fun f m => fieldMask f ||| m) 0

/-- Placing the bits of `w` under one mask and then under another places those under both. -/
theorem place_place (x w m n : Word) :
    (((x &&& ~~~m) ||| (w &&& m)) &&& ~~~n) ||| (w &&& n) = (x &&& ~~~(m ||| n)) ||| (w &&& (m ||| n)) := by
  ext i hi
  simp only [BitVec.getElem_or, BitVec.getElem_and, BitVec.getElem_not]
  cases m[i] <;> cases n[i] <;> simp

/-- The rows that a word has at some fields place its bits in these fields. -/
theorem execAll_rows {w : Word} {fs : List FrameField} (h : ∀ f ∈ fs, (decodeField f w).toOption.isSome) (s : State) :
    execAll (fs.filterMap fun f => (decodeField f w).toOption) s =
      .next (s.placeField (fieldsMask fs) (w &&& fieldsMask fs)) := by
  induction fs generalizing s with
  | nil =>
    simp only [fieldsMask, List.foldr_nil, List.filterMap_nil, execAll, State.placeField, BitVec.ofNat_eq_ofNat,
      BitVec.and_zero, BitVec.or_zero, BitVec.not_zero, BitVec.and_allOnes]
  | cons f fs ih =>
    obtain ⟨hf, hfs⟩ := List.forall_mem_cons.1 h
    cases hrow : decodeField f w with
    | error e => rw [hrow] at hf; cases hf
    | ok i =>
      have hexec := exec_of_decode_field (f := f) hrow s
      have hcons : (f :: fs).filterMap (fun f => (decodeField f w).toOption) =
          i :: fs.filterMap fun f => (decodeField f w).toOption := by
        rw [List.filterMap_cons, hrow]
        rfl
      rw [hcons, execAll, hexec]
      refine (ih hfs _).trans (congrArg (fun x => Host.Outcome.next { s with txFrame := x }) ?_)
      exact place_place _ _ _ _

/-- Every command's word has a row at each of its fields (40_encoder.md R70, R75). -/
theorem decodeField_commandWord (c : Command) (f : FrameField) : (decodeField f (commandWord c)).toOption.isSome := by
  obtain ⟨-, hmode, -, -⟩ := extractLsb'_commandWord c
  cases f with
  | function | tempCode => rfl
  | mode =>
    rw [decodeField, hmode]
    cases c.mode <;> rfl
  | fanSpeed =>
    rw [decodeField]
    split <;> rfl
  | reserved8to6 =>
    rw [decodeField, commandWord, if_pos (pack_reserved8to6 _ _ _ _)]
    rfl
  | reserved31to17 =>
    rw [decodeField, commandWord, if_pos (pack_reserved31to17 _ _ _ _)]
    rfl

/-- Settles O19: six rows are one for each field, each places the word's own bits, and the fields together are the word. -/
theorem frameRowsRebuildTheEncodedWord : Obligations.FrameRowsRebuildTheEncodedWord := by
  refine ⟨fun w s hsix => ?rebuild, fun c => ?command⟩
  case rebuild =>
    have hall : ∀ f ∈ frameFields, (decodeField f w).toOption.isSome := List.filterMap_length_eq_length.1 hsix
    have hmask : fieldsMask frameFields = BitVec.allOnes 32 := by decide
    rw [frameRows, execAll_rows hall, hmask]
    simp only [State.placeField, BitVec.not_allOnes, BitVec.and_zero, BitVec.zero_or, BitVec.and_allOnes]
  case command => exact List.filterMap_length_eq_length.2 fun f _ => decodeField_commandWord c f

end Sys2Proof.Machine

/-! ### The waveform elements -/

namespace Sys2Proof.Machine

/-- A waveform element runs as one poll (41_modulator.md R89 to R92). -/
theorem exec_of_mem_elements {i : Instr} (h : i ∈ [Instr.preamble, .sym1, .sym0, .trailer1, .trailer0, .stop]) (s : State) :
    exec i s = s.runElement i := by
  simp only [List.mem_cons, List.not_mem_nil, or_false] at h
  obtain rfl | rfl | rfl | rfl | rfl | rfl := h <;> rfl

theorem mem_elements_of_elementPhase {w : Word} {i : Instr} {n : Nat} (h : ElementPhase w i n) :
    i ∈ [Instr.preamble, .sym1, .sym0, .trailer1, .trailer0, .stop] := by
  cases h <;> simp

/-- Settles O38: `runElement` does nothing in IDLE, nor where the element of the phase is another one. -/
theorem elementOutsideItsPhasesChangesNothing : Obligations.ElementOutsideItsPhasesChangesNothing := by
  intro s i hi
  rw [exec_of_mem_elements hi]
  refine ⟨fun hidle => State.runElement_idle hidle i, fun k w hseq hfr hother => State.runElement_other hseq hfr fun h => ?_⟩
  exact hother (h ▸ elementPhase_elementAt w k)

/-- The element of a phase in which no data symbol runs does not depend on the word. -/
theorem ElementPhase.of_not_data {w : Word} {i : Instr} {n : Nat} (h : ElementPhase w i n) (h1 : i ≠ .sym1)
    (h0 : i ≠ .sym0) (v : Word) : ElementPhase v i n := by
  cases h with
  | preamble r h hr hh => exact .preamble r h hr hh
  | sym1 => exact absurd rfl h1
  | sym0 => exact absurd rfl h0
  | trailer1 r h hr hh => exact .trailer1 r h hr hh
  | trailer0 r h hr hh => exact .trailer0 r h hr hh
  | stop => exact .stop

/-- The phases of the elements that are no data symbols read nothing of FR (41_modulator.md R100). -/
theorem readsFR_of_elementAt {w : Word} {k : Fin 211} (h1 : elementAt w k ≠ .sym1) (h0 : elementAt w k ≠ .sym0) :
    readsFR (phaseOf k) = false := by
  cases hp : phaseOf k with
  | bit i h =>
    rw [elementAt, hp] at h1 h0
    by_cases hb : w.getLsbD i.val = true
    · exact absurd (if_pos hb) h1
    · exact absurd (if_neg hb) h0
  | preOn | preOff | trl1 | trl0 | stopOn => rfl

/-- An element in a phase of its own, whose duration has not elapsed, polls and changes nothing else (41_modulator.md R94). -/
theorem State.runElement_of_not_ended {s : State} {i : Instr} {k : Fin 211} {w : Word} {t0 : Micros} (hseq : s.seq = .run k)
    (hfr : s.fr = some w ∨ s.fr = none ∧ i ≠ .sym1 ∧ i ≠ .sym0) (ht0 : s.t0 = some t0) (hi : ElementPhase w i k.val)
    (hrun : phaseEnded t0 s.timerRead.timer (durOf (phaseOf k)) = false) : s.runElement i = .next s.timerRead := by
  have hpoll (v : Word) : s.poll v t0 k = s.timerRead := by
    obtain ⟨-, h⟩ | ⟨hended, -⟩ := s.poll_cases v t0 k
    · exact h
    · rw [hrun] at hended
      cases hended
  obtain hfr | ⟨-, h1, h0⟩ := hfr
  · rw [← elementAt_eq_of_elementPhase hi, State.runElement_eq hseq hfr ht0, hpoll]
  · have hat : elementAt (s.fr.getD 0) k = i := elementAt_eq_of_elementPhase (hi.of_not_data h1 h0 _)
    have hreads : readsFR (phaseOf k) = false := readsFR_of_elementAt (hat ▸ h1) (hat ▸ h0)
    have hafter : s.phaseAfterPoll t0 k = phaseOf k := by
      rw [State.phaseAfterPoll, hrun]
      rfl
    rw [← hat, State.runElement_eq_of_not_readsFR hseq ht0 hreads (hafter ▸ hreads), hpoll]

/-- The duration of a phase in the list of R87 is that of R88's table. -/
theorem dur_of_getElem?_txPhases {w : Word} {k : Fin 211} {p : Phase} (h : (txPhases w)[k.val]? = some p) :
    p = phaseAt w k :=
  Option.some.inj (h.symm.trans (getElem?_txPhases_eq_phaseAt w k))

/-- Settles O35: the poll finds the phase running, so that it is its timer read and nothing else. -/
theorem pollBeforeTheEndOnlyReadsTheTimer : Obligations.PollBeforeTheEndOnlyReadsTheTimer := by
  intro s i k w t0 p hseq hfr ht0 hi hp hlt
  obtain rfl := dur_of_getElem?_txPhases hp
  have hrun : phaseEnded t0 s.timerRead.timer (durOf (phaseOf k)) = false :=
    decide_eq_false (Nat.not_le.2 hlt)
  rw [exec_of_mem_elements (mem_elements_of_elementPhase hi), State.runElement_of_not_ended hseq hfr ht0 hi hrun]
  rfl

/-- Settles O36: the poll finds the phase ended, and `BeginPhase` of the next one follows its read. -/
theorem pollAtTheEndBeginsTheNextPhase : Obligations.PollAtTheEndBeginsTheNextPhase := by
  intro s i k w t0 p q hnext hseq hfr ht0 hi hp hq hle
  obtain rfl := dur_of_getElem?_txPhases hp
  obtain rfl := dur_of_getElem?_txPhases (k := ⟨k.val + 1, hnext⟩) hq
  have hended : phaseEnded t0 s.timerRead.timer (durOf (phaseOf k)) = true := decide_eq_true hle
  have hpoll : s.poll w t0 k = s.timerRead.beginPhase w ⟨k.val + 1, hnext⟩ := by
    obtain ⟨hrun, -⟩ | ⟨-, ⟨_, h⟩ | ⟨hlast, -⟩⟩ := s.poll_cases w t0 k
    · rw [hended] at hrun
      cases hrun
    · exact h
    · omega
  refine ⟨s.timerRead.beginPhase w ⟨k.val + 1, hnext⟩, ?_, rfl, rfl, rfl, rfl, ?_⟩
  · rw [exec_of_mem_elements (mem_elements_of_elementPhase hi), ← elementAt_eq_of_elementPhase hi,
      State.runElement_eq hseq hfr ht0, hpoll]
  · simp

end Sys2Proof.Machine

/-! ### The ports that the sequencer does not read -/

namespace Sys2Proof.Machine

/-- The state with other values on CMD and TX_FRAME. -/
def State.mapPorts (f : Cmd16 → Cmd16) (g : Word → Word) (s : State) : State :=
  { s with cmd := f s.cmd, txFrame := g s.txFrame }

/-- The outcome with its next state, if it has one, changed by `f`. -/
def mapNext (f : State → State) : Host.Outcome State Fault Refusal → Host.Outcome State Fault Refusal
  | .next s => .next (f s)
  | .fault r => .fault r
  | .refused r => .refused r

theorem State.advance_mapPorts (f : Cmd16 → Cmd16) (g : Word → Word) (s : State) (w : Word) (k : Fin 211) :
    (s.mapPorts f g).advance w k = (s.advance w k).mapPorts f g := by
  by_cases hnext : k.val + 1 < 211
  · rw [State.advance, State.advance, dif_pos hnext, dif_pos hnext]
    rfl
  · rw [State.advance, State.advance, dif_neg hnext, dif_neg hnext]
    rfl

theorem State.poll_mapPorts (f : Cmd16 → Cmd16) (g : Word → Word) (s : State) (w : Word) (t0 : Micros) (k : Fin 211) :
    (s.mapPorts f g).poll w t0 k = (s.poll w t0 k).mapPorts f g := by
  have hread : (s.mapPorts f g).timerRead = s.timerRead.mapPorts f g := rfl
  have htimer : (s.timerRead.mapPorts f g).timer = s.timerRead.timer := rfl
  rw [State.poll, State.poll, hread, htimer, State.advance_mapPorts]
  exact (apply_ite (State.mapPorts f g) _ _ _).symm

/-- An element reads neither CMD nor TX_FRAME (20_memory.md R43, 40_encoder.md R81). -/
theorem State.runElement_mapPorts (f : Cmd16 → Cmd16) (g : Word → Word) (s : State) (i : Instr) :
    (s.mapPorts f g).runElement i = mapNext (State.mapPorts f g) (s.runElement i) := by
  cases hseq : s.seq with
  | idle => rw [State.runElement_idle hseq, State.runElement_idle (s := s.mapPorts f g) hseq]; rfl
  | run k =>
    have hseq' : (s.mapPorts f g).seq = .run k := hseq
    have hframe (p : Ph) : (s.mapPorts f g).frameFor p = s.frameFor p := rfl
    have ht0 : (s.mapPorts f g).readT0 = s.readT0 := rfl
    have hafter (t0 : Micros) : (s.mapPorts f g).phaseAfterPoll t0 k = s.phaseAfterPoll t0 k := rfl
    simp only [State.runElement, hseq, hseq', hframe, ht0, hafter, State.poll_mapPorts]
    cases s.frameFor (phaseOf k) with
    | error e => rfl
    | ok w =>
      by_cases hi : elementAt w k = i
      · cases s.readT0 with
        | error e => simp [hi, mapNext]
        | ok t0 => cases hw' : s.frameFor (s.phaseAfterPoll t0 k) <;> simp [hi, hw', mapNext]
      · simp [hi, mapNext]

theorem exec_mapPorts_of_next {i : Instr} {s t : State} (f : Cmd16 → Cmd16) (g : Word → Word)
    (hi : i ∈ [Instr.preamble, .sym1, .sym0, .trailer1, .trailer0, .stop]) (h : exec i s = .next t) :
    exec i (s.mapPorts f g) = .next (t.mapPorts f g) := by
  rw [exec_of_mem_elements hi] at h ⊢
  rw [State.runElement_mapPorts, h]
  rfl

/-- Settles O39: no element reads TX_FRAME. -/
theorem txFrameCannotReachARunningTransmission : Obligations.TxFrameCannotReachARunningTransmission :=
  fun _ _ _ x hi h => exec_mapPorts_of_next id (fun _ => x) hi h

end Sys2Proof.Machine

/-! ### TRANSMIT -/

namespace Sys2Proof.Machine

theorem State.requestTransmit_of_idle {s : State} (w : Word) (hready : s.platform.ready) (hb : s.busy = false) :
    s.requestTransmit w = .next (s.accept w) := by
  obtain ⟨hpresent, hconfig⟩ := hready
  simp [State.requestTransmit, hpresent, hconfig, hb]

theorem State.requestTransmit_of_busy {s : State} (w : Word) (hready : s.platform.ready) (hb : s.busy = true) :
    s.requestTransmit w = .next (s.hold w) := by
  obtain ⟨hpresent, hconfig⟩ := hready
  simp [State.requestTransmit, hpresent, hconfig, hb]

/-- TRANSMIT is a request of its word (41_modulator.md R83). -/
theorem exec_transmit (w : Word) (s : State) : exec (.transmit w) s = s.requestTransmit w := rfl

/-- Settles O10: FRAME_OUT is a function of the two fields; of the instructions but ENCODE each writes its own port, requests,
or polls, whatever CMD is. -/
theorem encoderAndModulatorAreIndependent : Obligations.EncoderAndModulatorAreIndependent := by
  refine ⟨fun s s' hcmd hpolicy => by rw [State.frameOut, State.frameOut, hcmd, hpolicy], fun i s t v hi h => ?_⟩
  have element (he : i ∈ [Instr.preamble, .sym1, .sym0, .trailer1, .trailer0, .stop]) :
      exec i (s.driveCmd v) = .next (t.driveCmd v) := exec_mapPorts_of_next (fun _ => v) id he h
  have row {mask value : Word} (hrow : FieldRow i mask value) : exec i (s.driveCmd v) = .next (t.driveCmd v) := by
    rw [exec_fieldRow hrow] at h ⊢
    cases h
    rfl
  cases i with
  | encode c => exact absurd rfl (hi c)
  | transmit w =>
    rw [exec_transmit] at h ⊢
    obtain ⟨hready, ⟨hb, rfl⟩ | ⟨hb, rfl⟩⟩ := State.requestTransmit_next h
    · exact State.requestTransmit_of_busy (s := s.driveCmd v) w hready hb
    · exact State.requestTransmit_of_idle (s := s.driveCmd v) w hready hb
  | fnSetting => exact row .fnSetting
  | fnPower => exact row .fnPower
  | modeCool => exact row .modeCool
  | modeHeat => exact row .modeHeat
  | modeRecycle => exact row .modeRecycle
  | modeWater => exact row .modeWater
  | modeFan => exact row .modeFan
  | fanLow => exact row .fanLow
  | fanMed => exact row .fanMed
  | fanHi => exact row .fanHi
  | fanAuto => exact row .fanAuto
  | temp code => exact row (.temp code)
  | rsvd8to6 => exact row .rsvd8to6
  | rsvd31to17 => exact row .rsvd31to17
  | preamble | sym1 | sym0 | trailer1 | trailer0 | stop => exact element (by simp)

/-- Settles O20: while BUSY = 0 the request is the acceptance, whose fields and events are those of `accept`. -/
theorem transmitIsAcceptedWhenNotBusy : Obligations.TransmitIsAcceptedWhenNotBusy := by
  intro s w hready hb
  refine ⟨s.accept w, State.requestTransmit_of_idle w hready hb, ?_⟩
  simp only [State.accept_fr, State.accept_busy, State.accept_seq, State.accept_carrier, State.accept_txReq,
    State.accept_txFrame, State.accept_t0, State.accept_trace_kinds, State.accept_cmd, State.accept_resetIn,
    State.accept_tempPolicy, State.accept_platform, State.accept_host, and_self]

/-- Settles O22: the two tests that come before BUSY's. -/
theorem transmitOutsideItsPremisesIsRefused : Obligations.TransmitOutsideItsPremisesIsRefused := by
  intro s w
  rw [exec_transmit]
  refine ⟨fun habsent => ?_, fun hpresent hconfig => ?_⟩
  · rw [State.requestTransmit, if_pos habsent]
  · rw [State.requestTransmit, if_neg (by simp [hpresent]), if_pos hconfig]

/-- Settles O23: a request is held or accepted, and neither writes another agent's field but TX_FRAME. -/
theorem transmitFrame : Obligations.TransmitFrame := by
  intro s t w h
  obtain ⟨-, ⟨hb, rfl⟩ | ⟨hb, rfl⟩⟩ := State.requestTransmit_next h
  · simp
  · have hgrows : s.trace <:+ (s.accept w).trace := by
      rw [State.accept_trace]
      exact ⟨[_, _, _], rfl⟩
    simp [hgrows, hb]

/-- Settles O25: what an acceptance begins with has FR, T0, SEQ and CARRIER written before anything reads them. -/
theorem transmitIsSelfContained : Obligations.TransmitIsSelfContained := by
  intro s w seq fr t0 carrier hb
  rw [exec_transmit, exec_transmit, State.requestTransmit, State.requestTransmit, hb]
  rfl

end Sys2Proof.Machine

/-! ### Whose turn a step is -/

namespace Sys2Proof.Machine

/-- Where the host is ready, the step is its next operation, taken from the list (10_state.md R9; log 3). -/
theorem step_of_hostReady {s : State} {op : HostOp} {rest : List HostOp} (h : s.hostReady op rest) :
    step s = ((s.afterHostOp rest).fetchHost op).run := by
  obtain ⟨hrelease, hreq, hhost⟩ := h
  have hreq' : ¬ s.nextResetIn.txReq = true := by simp [hreq]
  have hhost' : s.nextResetIn.host = op :: rest := hhost
  rw [step_of_released hrelease, State.fetch, if_neg hreq', hhost']
  rfl

/-- The host has no step while its request is pending (41_modulator.md R98). -/
theorem State.fetch_of_txReq {s : State} (h : s.txReq = true) : s.fetch = s.fetchSequencer := by
  rw [State.fetch, if_pos h]

theorem State.fetch_of_no_host {s : State} (h : s.host = []) : s.fetch = s.fetchSequencer := by
  rw [State.fetch, h, ite_self]

theorem State.fetchSequencer_idle {s : State} (hseq : s.seq = .idle) (hreq : s.txReq = false) :
    s.fetchSequencer = .quiet s := by
  simp [State.fetchSequencer, hseq, hreq]

theorem State.fetchSequencer_request {s : State} (hseq : s.seq = .idle) (hreq : s.txReq = true) :
    s.fetchSequencer = .word .txFrame s.txFrame s := by
  simp [State.fetchSequencer, hseq, hreq]

/-- The level string of a phase's element decodes to the element that runs there (30_encoding.md R59 to R61, R64). -/
theorem decode_waveBits (w : Word) (k : Fin 211) :
    decode (.wave (elementOf (phaseOf k))) (waveBits w (phaseOf k)) = .ok (elementAt w k) := by
  rw [elementAt]
  cases phaseOf k with
  | bit i h =>
    by_cases hb : w.getLsbD i.val = true
    · simp only [elementOf, waveBits, if_pos hb]
      rfl
    · simp only [elementOf, waveBits, if_neg hb]
      rfl
  | preOn | preOff | trl1 | trl0 | stopOn => rfl

/-- The sequencer's turn in a running phase runs the phase's element (41_modulator.md R89 to R92). -/
theorem State.run_fetchSequencer {s : State} {k : Fin 211} {w : Word} (hseq : s.seq = .run k) (hfr : s.fr = some w) :
    s.fetchSequencer.run = exec (elementAt w k) s := by
  have hfetch : s.fetchSequencer = .word (.wave (elementOf (phaseOf k))) (waveBits w (phaseOf k)) s := by
    simp only [State.fetchSequencer, hseq, State.frameFor_of_fr hfr]
  rw [hfetch, Fetched.run_word_of_ok s (decode_waveBits w k)]

/-- Settles O58: the sequencer has the turn in each case, and the phase's element is the one its index gives. -/
theorem stepRunsTheElementOfThePhase : Obligations.StepRunsTheElementOfThePhase := by
  intro s k w i hrelease hseq hfr hi
  rw [← elementAt_eq_of_elementPhase hi]
  refine ⟨fun hturn => ?_, fun rest hreq hhost => ?_⟩
  · have hfetch : s.nextResetIn.fetch = s.nextResetIn.fetchSequencer :=
      hturn.elim (fun h => State.fetch_of_txReq h) (fun h => State.fetch_of_no_host h)
    rw [step_of_released hrelease, hfetch]
    exact State.run_fetchSequencer hseq hfr
  · rw [step_of_hostReady ⟨hrelease, hreq, hhost⟩]
    exact State.run_fetchSequencer (s := s.afterHostOp rest) hseq hfr

/-- Settles O60: the sequencer has the turn in each case, and in IDLE finds nothing to do. -/
theorem idleBlockWaits : Obligations.IdleBlockWaits := by
  intro s hrelease hseq hreq
  refine ⟨fun hhost => ?_, fun rest hhost => ?_⟩
  · rw [step_of_released hrelease, State.fetch_of_no_host (s := s.nextResetIn) hhost,
      State.fetchSequencer_idle (s := s.nextResetIn) hseq hreq, Fetched.run_quiet]
  · rw [step_of_hostReady ⟨hrelease, hreq, hhost⟩]
    exact congrArg Fetched.run (State.fetchSequencer_idle (s := s.afterHostOp rest) hseq hreq)

end Sys2Proof.Machine

/-! ### The host's operations at a step -/

namespace Sys2Proof.Machine

/-- A CMD16 value crosses the 32 bits of a slot whole (30_encoding.md R67). -/
theorem setWidth_cmd (v : Cmd16) : (v.setWidth 32).setWidth 16 = v := by
  rw [BitVec.setWidth_setWidth_of_le v (by decide), BitVec.setWidth_eq]

theorem step_encode_of_ok {s : State} {v : Cmd16} {c : Command} {rest : List HostOp} (h : s.hostReady (.encode v) rest)
    (hc : decodeCmd v = .ok c) : step s = exec (.encode c) (s.afterHostOp rest) := by
  rw [step_of_hostReady h]
  exact Fetched.run_word_of_ok _ (decode_cmd_of_ok ((setWidth_cmd v).symm ▸ hc))

theorem step_encode_of_error {s : State} {v : Cmd16} {e : CmdError} {rest : List HostOp} (h : s.hostReady (.encode v) rest)
    (he : decodeCmd v = .error e) : step s = .refused (refusalOfCmd e) := by
  rw [step_of_hostReady h]
  exact Fetched.run_word_of_error _ (decode_cmd_of_error ((setWidth_cmd v).symm ▸ he))

/-- A CMD16 value whose Command has a word is left on CMD (40_encoder.md R69; log 21). -/
theorem step_encode_of_word {s : State} {v : Cmd16} {c : Command} {w : Word} {rest : List HostOp}
    (h : s.hostReady (.encode v) rest) (hc : decodeCmd v = .ok c) (hw : encodeCommand s.tempPolicy c = .ok w) :
    step s = .next ((s.afterHostOp rest).driveCmd v) := by
  rw [step_encode_of_ok h hc, exec_encode_of_ok (s := s.afterHostOp rest) hw, packCmd_of_decodeCmd hc]

/-- Settles O9: the decoder makes the first two checks in their order, and ENCODE makes the third one on what decodes. -/
theorem firstRefusalIsReported : Obligations.FirstRefusalIsReported := by
  intro s v rest h
  have command (hrsvd : v.extractLsb' 6 2 = 0) (hmode : (v.extractLsb' 1 3).toNat < 5) :
      ∃ c, decodeCmd v = .ok c ∧ c.temp = v.extractLsb' 8 8 := by
    obtain ⟨fields, -⟩ := commandFieldsStandWhereTheSpecSays
    obtain ⟨c, hc, -, -, -, htemp⟩ := fields v hrsvd hmode
    exact ⟨c, hc, htemp⟩
  refine ⟨fun hrsvd => ?reserved, fun hrsvd hmode => ?mode, fun hrsvd hmode hpolicy htemp => ?temp,
    fun hrsvd hmode hpass => ?word⟩
  case reserved => exact step_encode_of_error h (decodeCmd_of_reserved hrsvd)
  case mode => exact step_encode_of_error h (decodeCmd_of_no_mode hrsvd ((modeOfSel_eq_none_iff _).2 hmode))
  case temp =>
    obtain ⟨c, hc, hct⟩ := command hrsvd hmode
    rw [← hct, ← admitted_eq_false_iff] at htemp
    rw [step_encode_of_ok h hc]
    apply exec_encode_of_error
    exact (congrArg (encodeCommand · c) hpolicy).trans (encodeCommand_refuse_of_not_admitted htemp)
  case word =>
    obtain ⟨c, hc, hct⟩ := command hrsvd hmode
    have hadmitted : s.tempPolicy = .wrap ∨ c.admitted = true := by
      refine hpass.imp_right fun hrange => ?_
      rw [← hct] at hrange
      simp [Command.admitted, hrange]
    exact step_encode_of_word h hc ((encodeCommand_ok_iff _ _ _).2 ⟨hadmitted, rfl⟩)

theorem step_transmit {s : State} {w : Word} {rest : List HostOp} (h : s.hostReady (.transmit w) rest) :
    step s = exec (.transmit w) (s.afterHostOp rest) := by
  rw [step_of_hostReady h]
  exact Fetched.run_word_of_ok _ rfl

/-- `TRANSMIT FRAME_OUT` is TRANSMIT of the word that FRAME_OUT has (30_encoding.md R68; log 22). -/
theorem step_transmitFrameOut {s : State} {w : Word} {rest : List HostOp} (h : s.hostReady .transmitFrameOut rest)
    (hw : s.frameOut = .ok w) : step s = exec (.transmit w) (s.afterHostOp rest) := by
  have hout : (s.afterHostOp rest).frameOut = .ok w := hw
  rw [step_of_hostReady h]
  simp only [State.fetchHost, hout]
  exact Fetched.run_word_of_ok _ rfl

theorem step_transmitFrameOut_of_error {s : State} {r : Refusal} {rest : List HostOp}
    (h : s.hostReady .transmitFrameOut rest) (hr : s.frameOut = .error r) : step s = .refused r := by
  have hout : (s.afterHostOp rest).frameOut = .error r := hr
  rw [step_of_hostReady h]
  simp only [State.fetchHost, hout, Fetched.run_refuse]

/-- A value of a field that no row names is driven all the same (20_memory.md R43; log 26). -/
theorem State.unnamed_of_decode_field {f : FrameField} {w : Word} {e : DecodeError} (h : decode (.field f) w = .error e)
    (s : State) : s.unnamed (.field f) w e = .next (s.placeField (fieldMask f) (w &&& fieldMask f)) := by
  cases f with
  | function | tempCode => cases h
  | mode | fanSpeed | reserved8to6 | reserved31to17 =>
    simp only [decode, decodeField] at h
    split at h <;> cases h <;> rfl

/-- Any value of a field is driven on TX_FRAME (20_memory.md R43; log 13). -/
theorem step_setField {s : State} {f : FrameField} {w : Word} {rest : List HostOp} (h : s.hostReady (.setField f w) rest) :
    step s = .next ((s.afterHostOp rest).placeField (fieldMask f) (w &&& fieldMask f)) := by
  rw [step_of_hostReady h, State.fetchHost]
  cases hd : decode (.field f) w with
  | ok i => rw [Fetched.run_word_of_ok _ hd, exec_of_decode_field hd]
  | error e => rw [Fetched.run_word_of_error _ hd, State.unnamed_of_decode_field hd]

/-- Settles O57: each operation is what `fetchHost` finds for it. -/
theorem stepTakesTheHostOperation : Obligations.StepTakesTheHostOperation := by
  intro s rest
  refine ⟨fun v c h hc => step_encode_of_ok h hc, fun w h => step_transmit h, fun w h hw => step_transmitFrameOut h hw,
    fun r h hr => step_transmitFrameOut_of_error h hr, fun f w i h hd => ?row, fun f w h => step_setField h,
    fun w h => ?whole, fun c h hb => ?configure, fun on h hb => ?foreign, fun h hseq => ?idle⟩
  case row =>
    rw [step_of_hostReady h]
    exact Fetched.run_word_of_ok _ hd
  case whole => rw [step_of_hostReady h, State.fetchHost, Fetched.run_quiet]
  case configure =>
    have hfree : ¬ (s.afterHostOp rest).busy = true := by simp [State.afterHostOp, hb]
    rw [step_of_hostReady h, State.fetchHost, State.foreignAtCarrier, if_neg hfree]
    rfl
  case foreign =>
    have hfree : ¬ (s.afterHostOp rest).busy = true := by simp [State.afterHostOp, hb]
    rw [step_of_hostReady h, State.fetchHost, State.foreignAtCarrier, if_neg hfree, Fetched.run_quiet]
  case idle =>
    obtain ⟨-, hreq, -⟩ := id h
    rw [step_of_hostReady h]
    exact congrArg Fetched.run (State.fetchSequencer_idle (s := s.afterHostOp rest) hseq hreq)

/-- Settles O59: both calls are another agent's at the carrier, which BUSY refuses. -/
theorem foreignAgentWhileBusyIsRefused : Obligations.ForeignAgentWhileBusyIsRefused := by
  intro s rest on c hb
  have hbusy : (s.afterHostOp rest).busy = true := hb
  refine ⟨fun h => ?_, fun h => ?_⟩
  · rw [step_of_hostReady h, State.fetchHost, State.foreignAtCarrier, if_pos hbusy, Fetched.run_refuse]
  · rw [step_of_hostReady h, State.fetchHost, State.foreignAtCarrier, if_pos hbusy, Fetched.run_refuse]

/-- A TRANSMIT requested of an idle block at the host's step is accepted. -/
theorem step_transmit_of_idle {s : State} {w : Word} {rest : List HostOp} (h : s.hostReady (.transmit w) rest)
    (hready : s.platform.ready) (hb : s.busy = false) : step s = .next ((s.afterHostOp rest).accept w) :=
  (step_transmit h).trans (State.requestTransmit_of_idle (s := s.afterHostOp rest) w hready hb)

/-- `TRANSMIT FRAME_OUT` at an idle block is accepted where FRAME_OUT has a word. -/
theorem step_transmitFrameOut_of_idle {s : State} {w : Word} {rest : List HostOp} (h : s.hostReady .transmitFrameOut rest)
    (hw : s.frameOut = .ok w) (hready : s.platform.ready) (hb : s.busy = false) :
    step s = .next ((s.afterHostOp rest).accept w) :=
  (step_transmitFrameOut h hw).trans (State.requestTransmit_of_idle (s := s.afterHostOp rest) w hready hb)

/-- Settles O21: a request while BUSY is held, has the host wait, and is what the sequencer finds to do in IDLE. -/
theorem transmitIsHeldWhileBusy : Obligations.TransmitIsHeldWhileBusy := by
  refine ⟨fun s w hready hb => State.requestTransmit_of_busy w hready hb, fun s hreq => State.fetch_of_txReq hreq,
    fun s hrelease hready hreq hb hseq => ⟨s.nextResetIn.accept s.txFrame, ?_, ?_⟩⟩
  · rw [step_of_released hrelease, State.fetch_of_txReq (s := s.nextResetIn) hreq,
      State.fetchSequencer_request (s := s.nextResetIn) hseq hreq, Fetched.run_word_of_ok _ rfl]
    exact State.requestTransmit_of_idle (s := s.nextResetIn) _ hready hb
  · simp

/-- Settles O24: the reset block meets the premises and is not BUSY. -/
theorem firstTransmitAfterResetIsAccepted : Obligations.FirstTransmitAfterResetIsAccepted := by
  intro w rest
  have hready : State.reset.platform.ready := ⟨rfl, by decide⟩
  refine ⟨_, step_transmit_of_idle (rest := rest) ⟨rfl, rfl, rfl⟩ hready rfl, ?_⟩
  simp [State.afterHostOp]

/-- A run of one more step. -/
theorem run_succ_of_next {s t : State} (h : step s = .next t) (n : Nat) : core.run (n + 1) s = core.run n t := by
  have hstep : core.step s = .next t := h
  simp only [Host.Core.run, hstep]

/-- Settles O26: the first step leaves the value on CMD, so that FRAME_OUT is its word, and the second one transmits that. -/
theorem sendTransmitsTheEncodedWord : Obligations.SendTransmitsTheEncodedWord := by
  intro s v w rest hready hb hreq hreset hhost hframe
  obtain ⟨c, hc, hpass, rfl⟩ := (frameOf_ok_iff s.tempPolicy v w).1 hframe
  have hrelease : s.resetLevel = false := by rw [State.resetLevel, hreset]
  have hrelease' : ((s.afterHostOp (.transmitFrameOut :: rest)).driveCmd v).resetLevel = false := by
    simp [State.afterHostOp, State.resetLevel, hreset]
  have hfirst : step s = .next ((s.afterHostOp (.transmitFrameOut :: rest)).driveCmd v) :=
    step_encode_of_word ⟨hrelease, hreq, hhost⟩ hc ((encodeCommand_ok_iff _ _ _).2 ⟨hpass, rfl⟩)
  have hsecond := step_transmitFrameOut_of_idle (rest := rest) ⟨hrelease', hreq, rfl⟩ hframe hready hb
  refine ⟨_, (run_succ_of_next hfirst 1).trans (run_succ_of_next hsecond 0), ?_⟩
  simp [State.afterHostOp]

end Sys2Proof.Machine

/-! ### A transmission that nothing disturbs -/

namespace Sys2Proof.Machine

theorem nominalStart_succ (w : Word) (k : Fin 211) :
    nominalStart w (k.val + 1) = nominalStart w k.val + durOf (phaseOf k) := by
  rw [nominalStart, List.take_add_one, getElem?_txPhases_eq_phaseAt, List.map_append, List.sum_append]
  rfl

theorem nominalStart_zero (w : Word) : nominalStart w 0 = 0 := by
  rw [nominalStart, List.take_zero]
  rfl

theorem nominalStart_le_end (w : Word) (n : Nat) : nominalStart w n ≤ 215650 := by
  have hall : nominalStart w n + (((txPhases w).drop n).map Phase.dur).sum = nominalStart w 211 := by
    rw [nominalStart, ← List.sum_append, ← List.map_append, List.take_append_drop, nominalStart,
      List.take_of_length_le (length_txPhases w).le]
  rw [nominalStart_end] at hall
  omega

/-- The moves among the next draws, those of a state `c` draws later counted apart. -/
theorem State.moves_add {s t : State} {c : Nat} (h : ∀ n, t.drawAt n = s.drawAt (c + n)) (n : Nat) :
    s.moves (c + n) = s.moves c + t.moves n := by
  simp [State.moves, List.range_add, List.countP_map, Function.comp_def, h]

theorem State.DrawsWithin.later {s t : State} {c gap n : Nat} (h : s.DrawsWithin gap (c + n))
    (hdraw : ∀ n, t.drawAt n = s.drawAt (c + n)) : t.DrawsWithin gap n :=
  fun i hi => (hdraw i).trans_le (h (c + i) (by omega))

theorem State.beginPhase_drawAt (s : State) (w : Word) (k : Fin 211) (n : Nat) :
    (s.beginPhase w k).drawAt n = s.drawAt (n + 2) :=
  (s.carrierWrite (levelOf w (phaseOf k))).timerRead_drawAt n |>.trans (s.carrierWrite_drawAt _ (n + 1))

theorem State.accept_drawAt (s : State) (w : Word) (n : Nat) : (s.accept w).drawAt n = s.drawAt (n + 3) :=
  (State.beginPhase_drawAt _ w 0 n).trans (s.tick_drawAt (n + 2))

theorem State.resetLevel_of_released {s : State} (h : ∀ b ∈ s.resetIn, b = false) : s.resetLevel = false := by
  rw [State.resetLevel]
  cases hlist : s.resetIn with
  | nil => rfl
  | cons b bs => exact h b (hlist ▸ List.mem_cons_self)

/-- Nothing outside the block asks anything of it: RESET stays released, the host does nothing, no request is pending. -/
structure State.Undisturbed (s : State) : Prop where
  released : ∀ b ∈ s.resetIn, b = false
  quiet : ∀ op ∈ s.host, op = .idle
  unrequested : s.txReq = false

theorem State.Undisturbed.timerRead {s : State} (h : s.Undisturbed) : s.timerRead.Undisturbed :=
  ⟨h.released, h.quiet, h.unrequested⟩

theorem State.Undisturbed.beginPhase {s : State} (h : s.Undisturbed) (w : Word) (k : Fin 211) :
    (s.beginPhase w k).Undisturbed where
  released := by rw [State.beginPhase_resetIn]; exact h.released
  quiet := by rw [State.beginPhase_host]; exact h.quiet
  unrequested := by rw [State.beginPhase_txReq]; exact h.unrequested

/-- An undisturbed running block polls (41_modulator.md R94). -/
theorem State.Undisturbed.step_eq_poll {s : State} {k : Fin 211} {w : Word} {t0 : Micros} (h : s.Undisturbed)
    (hseq : s.seq = .run k) (hfr : s.fr = some w) (ht0 : s.t0 = some t0) :
    ∃ u, s.SameBlock u ∧ u.Undisturbed ∧ step s = .next (u.poll w t0 k) := by
  have hpoll (u : State) (hsame : s.SameBlock u) : exec (elementAt w k) u = .next (u.poll w t0 k) := by
    rw [exec_of_mem_elements (mem_elements_of_elementPhase (elementPhase_elementAt w k))]
    exact State.runElement_eq (hsame.seq.trans hseq) (hsame.fr.trans hfr) (hsame.t0.trans ht0)
  obtain ⟨hno, hidle⟩ := stepRunsTheElementOfThePhase s k w _ (State.resetLevel_of_released h.released) hseq hfr
    (elementPhase_elementAt w k)
  have hreleased : ∀ b ∈ s.resetIn.tail, b = false := fun b hb => h.released b (List.mem_of_mem_tail hb)
  cases hhost : s.host with
  | nil =>
    have hsame : s.SameBlock s.nextResetIn := ⟨rfl, rfl, rfl, rfl, rfl, rfl, rfl, rfl, rfl⟩
    exact ⟨_, hsame, ⟨hreleased, h.quiet, h.unrequested⟩, (hno (.inr hhost)).trans (hpoll _ hsame)⟩
  | cons op rest =>
    have hquiet := h.quiet
    rw [hhost] at hquiet
    obtain ⟨rfl, hrest⟩ := List.forall_mem_cons.1 hquiet
    have hsame : s.SameBlock (s.afterHostOp rest) := ⟨rfl, rfl, rfl, rfl, rfl, rfl, rfl, rfl, rfl⟩
    exact ⟨_, hsame, ⟨hreleased, hrest, h.unrequested⟩, (hidle rest h.unrequested hhost).trans (hpoll _ hsame)⟩

/-- An undisturbed block in phase `k` of a transmission of `w`, which was read to begin at the clock `c0` and had not run out at
the last poll. -/
structure State.Sending (s : State) (w : Word) (k : Fin 211) (c0 : Nat) : Prop where
  inv : s.Inv
  wave : s.WaveOnTrace
  undisturbed : s.Undisturbed
  seq : s.seq = .run k
  fr : s.fr = some w
  t0 : s.t0 = some (BitVec.ofNat 64 c0)
  started : c0 ≤ s.clock
  before : s.clock < c0 + durOf (phaseOf k)

/-- The end of a transmission of `w`, with its whole waveform written (41_modulator.md R96, R110). -/
structure State.Completed (t : State) (w : Word) : Prop where
  seq : t.seq = .idle
  busy : t.busy = false
  carrier : t.carrier = false
  fr : t.fr = some w
  txDone : t.txDone = true
  wave : sinceAccept t.trace = some (w, txLevels w ++ [false])

theorem State.Sending.step_eq_poll {s : State} {w : Word} {k : Fin 211} {c0 : Nat} (h : s.Sending w k c0) :
    ∃ u, s.SameBlock u ∧ u.Sending w k c0 ∧ step s = .next (u.poll w (BitVec.ofNat 64 c0) k) := by
  obtain ⟨u, hsame, hquiet, hstep⟩ := h.undisturbed.step_eq_poll h.seq h.fr h.t0
  exact ⟨u, hsame, ⟨h.inv.of_sameBlock hsame, h.wave.of_sameBlock hsame, hquiet, hsame.seq.trans h.seq,
    hsame.fr.trans h.fr, hsame.t0.trans h.t0, hsame.clock ▸ h.started, hsame.clock ▸ h.before⟩, hstep⟩

/-- A poll that finds the phase running leaves it so (41_modulator.md R94). -/
theorem State.Sending.timerRead {u : State} {w : Word} {k : Fin 211} {c0 : Nat} (h : u.Sending w k c0)
    (hdraw : u.drawAt 0 < 2 ^ 63)
    (hrun : phaseEnded (BitVec.ofNat 64 c0) u.timerRead.timer (durOf (phaseOf k)) = false) :
    u.timerRead.Sending w k c0 where
  inv := h.inv.move (.wait u k _ h.seq h.t0 hrun)
  wave := h.wave.move (.wait u k _ h.seq h.t0 hrun)
  undisturbed := h.undisturbed.timerRead
  seq := h.seq
  fr := h.fr
  t0 := h.t0
  started := h.started.trans u.clock_le_tick
  before := clock_lt_of_not_phaseEnded h.started h.before (durOf_le _) hdraw hrun

/-- A poll that ends a phase before the last begins the next one (41_modulator.md R93, R95). -/
theorem State.Sending.beginPhase {u : State} {w : Word} {k : Fin 211} {c0 : Nat} (h : u.Sending w k c0)
    (hnext : k.val + 1 < 211)
    (hended : phaseEnded (BitVec.ofNat 64 c0) u.timerRead.timer (durOf (phaseOf k)) = true) :
    (u.timerRead.beginPhase w ⟨k.val + 1, hnext⟩).Sending w ⟨k.val + 1, hnext⟩
      (u.timerRead.beginPhase w ⟨k.val + 1, hnext⟩).clock := by
  have hmove : u.Move (u.timerRead.beginPhase w ⟨k.val + 1, hnext⟩) := by
    have hbegin := State.Move.begin u k _ hnext h.seq h.t0 hended
    rwa [h.fr] at hbegin
  exact {
    inv := h.inv.move hmove
    wave := h.wave.move hmove
    undisturbed := h.undisturbed.timerRead.beginPhase _ _
    seq := State.beginPhase_seq _ _ _
    fr := (State.beginPhase_fr _ _ _).trans h.fr
    t0 := State.beginPhase_t0_eq _ _ _
    started := le_rfl
    before := Nat.lt_add_of_pos_right (durOf_pos _) }

/-- The poll that ends the last phase completes the transmission (41_modulator.md R96). -/
theorem State.Sending.finish {u : State} {w : Word} {k : Fin 211} {c0 : Nat} (h : u.Sending w k c0) (hlast : k.val = 210) :
    u.timerRead.finish.Completed w where
  seq := State.finish_seq _
  busy := State.finish_busy _
  carrier := State.finish_carrier _
  fr := (State.finish_fr _).trans h.fr
  txDone := State.finish_txDone _
  wave := (h.wave.finish h.seq hlast h.fr).1

/-- What one step of an undisturbed transmission does: it lets a draw pass, begins the next phase after three draws, or
completes the transmission; a phase ends no earlier than its duration after its start read. -/
theorem State.Sending.step_cases {s : State} {w : Word} {k : Fin 211} {c0 : Nat} (h : s.Sending w k c0)
    (hdraw : s.drawAt 0 < 2 ^ 63) :
    ∃ t, step s = .next t ∧
      ((t.Sending w k c0 ∧ t.clock = s.clock + s.drawAt 0 ∧ ∀ n, t.drawAt n = s.drawAt (1 + n)) ∨
       (c0 + durOf (phaseOf k) ≤ t.clock ∧
        ((∃ hnext : k.val + 1 < 211, t.Sending w ⟨k.val + 1, hnext⟩ t.clock ∧ ∀ n, t.drawAt n = s.drawAt (3 + n)) ∨
         (k.val = 210 ∧ t.Completed w)))) := by
  obtain ⟨u, hsame, hu, hstep⟩ := h.step_eq_poll
  refine ⟨_, hstep, ?_⟩
  obtain ⟨hrun, hpoll⟩ | ⟨hended, hpoll⟩ := u.poll_cases w (BitVec.ofNat 64 c0) k
  · rw [hpoll]
    refine .inl ⟨hu.timerRead ((hsame.drawAt 0).trans_lt hdraw) hrun, ?_, fun n => ?_⟩
    · rw [State.timerRead_clock_eq, hsame.clock, hsame.drawAt]
    · rw [State.timerRead_drawAt, hsame.drawAt, Nat.add_comm]
  · have hend := le_clock_of_phaseEnded hu.started hended
    obtain ⟨hnext, hpoll⟩ | ⟨hlast, hpoll⟩ := hpoll
    · rw [hpoll]
      refine .inr ⟨?_, .inl ⟨hnext, hu.beginPhase hnext hended, fun n => ?_⟩⟩
      · rw [State.beginPhase_clock_eq]
        omega
      · rw [State.beginPhase_drawAt, State.timerRead_drawAt, hsame.drawAt, Nat.add_comm 3 n]
    · rw [hpoll]
      refine .inr ⟨?_, .inr ⟨hlast, hu.finish hlast⟩⟩
      rw [State.finish_clock_eq]
      omega

/-- An undisturbed transmission completes before the next `m` draws are taken, if these move the clock by the `q` microseconds
left of its nominal length and by the two draws more that each phase's end takes; it lasts `q` microseconds at least, and
takes a step for each of them at most where every draw moves the clock (41_modulator.md R104, R110). -/
theorem State.Sending.completes {w : Word} (m : Nat) : ∀ {s : State} {k : Fin 211} {c0 q : Nat}, s.Sending w k c0 →
    s.DrawsWithin (2 ^ 63 - 1) m → s.clock + q + nominalStart w k.val = c0 + 215650 → q + 2 * (211 - k.val) ≤ s.moves m →
    ∃ n t, n ≤ m ∧ ((∀ i < m, s.drawAt i ≠ 0) → n ≤ q) ∧ core.run n s = .next t ∧ t.Completed w ∧ s.clock + q ≤ t.clock := by
  induction m using Nat.strong_induction_on with
  | _ m ih =>
    intro s k c0 q h hdraws hq hmoves
    have hbefore := h.before
    have hsucc := nominalStart_succ w k
    have hend := nominalStart_le_end w (k.val + 1)
    have hm := hmoves.trans (s.moves_le m)
    have hdraw : s.drawAt 0 < 2 ^ 63 := Nat.lt_of_le_pred (by decide) (hdraws 0 (by omega))
    obtain ⟨t, hstep, ⟨hsame, hclock, hlater⟩ | ⟨hdur, ⟨hnext, hbegun, hlater⟩ | ⟨hlast, hdone⟩⟩⟩ := h.step_cases hdraw
    · obtain ⟨m, rfl⟩ : ∃ m', m = 1 + m' := ⟨m - 1, by omega⟩
      have hleft := hsame.before
      have hcount := s.moves_add hlater m
      have hone : s.moves 1 = if s.drawAt 0 ≠ 0 then 1 else 0 := by rw [State.moves_succ]; exact Nat.zero_add _
      have hbudget : q - s.drawAt 0 + 2 * (211 - k.val) ≤ t.moves m := by split at hone <;> omega
      obtain ⟨n, t', hn, hsteps, hrun, hcompleted, htime⟩ :=
        ih m (by omega) hsame (hdraws.later hlater) (q := q - s.drawAt 0) (by omega) hbudget
      refine ⟨n + 1, t', by omega, fun hmove => ?_, (run_succ_of_next hstep n).trans hrun, hcompleted, by omega⟩
      have hfirst := hmove 0 (by omega)
      have hrest := hsteps fun i hi => (hlater i).trans_ne (hmove (1 + i) (by omega))
      omega
    · obtain ⟨m, rfl⟩ : ∃ m', m = 3 + m' := ⟨m - 3, by omega⟩
      have hcount := s.moves_add hlater m
      have hthree := s.moves_le 3
      obtain ⟨n, t', hn, hsteps, hrun, hcompleted, htime⟩ :=
        ih m (by omega) hbegun (hdraws.later hlater) (q := 215650 - nominalStart w (k.val + 1))
          (by dsimp only; omega) (by dsimp only; omega)
      refine ⟨n + 1, t', by omega, fun hmove => ?_, (run_succ_of_next hstep n).trans hrun, hcompleted, by omega⟩
      have hrest := hsteps fun i hi => (hlater i).trans_ne (hmove (3 + i) (by omega))
      omega
    · have hall : nominalStart w (k.val + 1) = 215650 := by rw [hlast, nominalStart_end]
      exact ⟨1, t, by omega, fun _ => by omega, run_succ_of_next hstep 0, hdone, by omega⟩

/-- An accepted transmission that nothing disturbs is in its first phase, just read to begin (41_modulator.md R97). -/
theorem State.accept_sending {s : State} (w : Word) (hreleased : ∀ b ∈ s.resetIn, b = false)
    (hquiet : ∀ op ∈ s.host, op = .idle) : (s.accept w).Sending w 0 (s.accept w).clock where
  inv := s.accept_inv w
  wave := s.accept_waveOnTrace w
  undisturbed := ⟨hreleased, hquiet, State.accept_txReq s w⟩
  seq := State.accept_seq s w
  fr := State.accept_fr s w
  t0 := State.accept_t0 s w
  started := le_rfl
  before := Nat.lt_add_of_pos_right (durOf_pos _)

/-- Settles O52: the acceptance takes three draws and begins an undisturbed transmission with all 215650 microseconds and 211
ends of phases before it. -/
theorem transmissionRunsToCompletion : Obligations.TransmissionRunsToCompletion := by
  intro s w rest m hready hb hseq hreq hreleased hhost hquiet hdraws hmoves
  have hstep := step_transmit_of_idle ⟨State.resetLevel_of_released hreleased, hreq, hhost⟩ hready hb
  have hsending := State.accept_sending (s := s.afterHostOp rest) w
    (fun b hb => hreleased b (List.mem_of_mem_tail hb)) hquiet
  have hlater (n : Nat) : ((s.afterHostOp rest).accept w).drawAt n = s.drawAt (3 + n) := by
    rw [State.accept_drawAt, Nat.add_comm 3 n]
    rfl
  have hclock : s.clock ≤ ((s.afterHostOp rest).accept w).clock := by
    have hsame : (s.afterHostOp rest).clock = s.clock := rfl
    rw [State.accept_clock_eq]
    omega
  have hm := hmoves.trans (s.moves_le m)
  obtain ⟨m, rfl⟩ : ∃ m', m = 3 + m' := ⟨m - 3, by omega⟩
  have hcount := s.moves_add hlater m
  have hthree := s.moves_le 3
  have hzero : nominalStart w (0 : Fin 211).val = 0 := nominalStart_zero w
  obtain ⟨n, t, hn, hsteps, hrun, hdone, htime⟩ :=
    hsending.completes m (q := 215650) (hdraws.later hlater) (by omega) (by omega)
  refine ⟨n + 1, t, by omega, fun hmove => ?_, (run_succ_of_next hstep n).trans hrun, hdone.seq, hdone.busy,
    hdone.carrier, hdone.fr, hdone.txDone, hdone.wave, by omega⟩
  have hrest := hsteps fun i hi => (hlater i).trans_ne (hmove (3 + i) (by omega))
  omega

end Sys2Proof.Machine
